-- ==== Sys2Proof/Word.lean ====
section
/-! DEFINITION. The bit vectors and indexes the spec's rules are written over (00_scope.md R10, R12).
All values are unsigned; the machine has no signed operation. -/

namespace Sys2Proof

/-- A byte: 8 bits (R12). -/
abbrev Byte := BitVec 8

/-- A 16-bit value: the instruction word, PC, I, a stack entry (R12, R23, R24, R27). -/
abbrev Word := BitVec 16

/-- A 12-bit immediate address `NNN` (R94). -/
abbrev Addr := BitVec 12

/-- A 4-bit field of the instruction word (R12, R94). -/
abbrev Nibble := BitVec 4

/-- The number of a V register, 0 to 15 (R20). -/
abbrev Reg := Fin 16

/-- The code of a key, 0x0 to 0xF (R40). -/
abbrev Key := Fin 16

/-- A snapshot slot: the spec's slot n, 1 to 10, is the value n - 1 (R295). -/
abbrev Slot := Fin 10

end Sys2Proof
end

