-- ==== Sys2Proof/Syntax.lean ====
section
/-! DEFINITION. The instruction syntax: one constructor per row of spec/opcode_table.json (30_encoding.md R100), with the
operand fields of R94, each in the type of exactly its width. The mnemonics are the spec's own names (R100, R110), and
`Instr.asm` is the spec's assembler syntax (R110), which no meaning reads. -/

namespace Sys2Proof

/-- The 34 instructions of R100. `x`, `y` name V registers, `n`, `nn`, `nnn` are unsigned immediates (R94, R96). -/
inductive Instr where
  /-- 00E0 CLS (R120). -/
  | cls
  /-- 00EE RET (R121). -/
  | ret
  /-- 1NNN JP (R130). -/
  | jp (nnn : Addr)
  /-- 2NNN CALL (R131). -/
  | call (nnn : Addr)
  /-- 3XNN SE_IMM (R140). -/
  | seImm (x : Reg) (nn : Byte)
  /-- 4XNN SNE_IMM (R141). -/
  | sneImm (x : Reg) (nn : Byte)
  /-- 5XY0 SE_REG (R142). -/
  | seReg (x y : Reg)
  /-- 6XNN LD_IMM (R150). -/
  | ldImm (x : Reg) (nn : Byte)
  /-- 7XNN ADD_IMM (R151). -/
  | addImm (x : Reg) (nn : Byte)
  /-- 8XY0 LD_REG (R160). -/
  | ldReg (x y : Reg)
  /-- 8XY1 OR (R161). -/
  | orReg (x y : Reg)
  /-- 8XY2 AND (R162). -/
  | andReg (x y : Reg)
  /-- 8XY3 XOR (R163). -/
  | xorReg (x y : Reg)
  /-- 8XY4 ADD_REG (R164). -/
  | addReg (x y : Reg)
  /-- 8XY5 SUB (R165). -/
  | sub (x y : Reg)
  /-- 8XY6 SHR (R166). -/
  | shr (x y : Reg)
  /-- 8XY7 SUBN (R167). -/
  | subn (x y : Reg)
  /-- 8XYE SHL (R168). -/
  | shl (x y : Reg)
  /-- 9XY0 SNE_REG (R143). -/
  | sneReg (x y : Reg)
  /-- ANNN LD_I (R180). -/
  | ldI (nnn : Addr)
  /-- BNNN JP_V0 (R182). -/
  | jpV0 (nnn : Addr)
  /-- CXNN RND (R184). -/
  | rnd (x : Reg) (nn : Byte)
  /-- DXYN DRW (R196). -/
  | drw (x y : Reg) (n : Nibble)
  /-- EX9E SKP (R210). -/
  | skp (x : Reg)
  /-- EXA1 SKNP (R211). -/
  | sknp (x : Reg)
  /-- FX07 LD_VX_DT (R220). -/
  | ldVxDt (x : Reg)
  /-- FX0A LD_VX_K (R222). -/
  | ldVxK (x : Reg)
  /-- FX15 LD_DT_VX (R225). -/
  | ldDtVx (x : Reg)
  /-- FX18 LD_ST_VX (R226). -/
  | ldStVx (x : Reg)
  /-- FX1E ADD_I_VX (R240). -/
  | addIVx (x : Reg)
  /-- FX29 LD_F_VX (R244). -/
  | ldFVx (x : Reg)
  /-- FX33 LD_B_VX (R248). -/
  | ldBVx (x : Reg)
  /-- FX55 LD_MEM_VX (R250). -/
  | ldMemVx (x : Reg)
  /-- FX65 LD_VX_MEM (R252). -/
  | ldVxMem (x : Reg)
  deriving DecidableEq, Repr

/-- The mnemonic of R100, letter for letter as spec/opcode_table.json has it. -/
def Instr.mnemonic : Instr → String
  | .cls => "CLS"
  | .ret => "RET"
  | .jp _ => "JP"
  | .call _ => "CALL"
  | .seImm _ _ => "SE_IMM"
  | .sneImm _ _ => "SNE_IMM"
  | .seReg _ _ => "SE_REG"
  | .ldImm _ _ => "LD_IMM"
  | .addImm _ _ => "ADD_IMM"
  | .ldReg _ _ => "LD_REG"
  | .orReg _ _ => "OR"
  | .andReg _ _ => "AND"
  | .xorReg _ _ => "XOR"
  | .addReg _ _ => "ADD_REG"
  | .sub _ _ => "SUB"
  | .shr _ _ => "SHR"
  | .subn _ _ => "SUBN"
  | .shl _ _ => "SHL"
  | .sneReg _ _ => "SNE_REG"
  | .ldI _ => "LD_I"
  | .jpV0 _ => "JP_V0"
  | .rnd _ _ => "RND"
  | .drw _ _ _ => "DRW"
  | .skp _ => "SKP"
  | .sknp _ => "SKNP"
  | .ldVxDt _ => "LD_VX_DT"
  | .ldVxK _ => "LD_VX_K"
  | .ldDtVx _ => "LD_DT_VX"
  | .ldStVx _ => "LD_ST_VX"
  | .addIVx _ => "ADD_I_VX"
  | .ldFVx _ => "LD_F_VX"
  | .ldBVx _ => "LD_B_VX"
  | .ldMemVx _ => "LD_MEM_VX"
  | .ldVxMem _ => "LD_VX_MEM"

/-- One hexadecimal digit, as R110's listings print it. -/
def hexDigit (d : Nat) : Char :=
  ['0', '1', '2', '3', '4', '5', '6', '7', '8', '9', 'A', 'B', 'C', 'D', 'E', 'F'].getD (d % 16) '0'

/-- The `digits` low hexadecimal digits of `n`, most significant first. -/
def hexChars (n : Nat) : Nat → List Char
  | 0 => []
  | digits + 1 => hexChars (n / 16) digits ++ [hexDigit n]

/-- A number in a listing (R110). -/
def hex (n digits : Nat) : String := String.ofList (hexChars n digits)

/-- `Vx`: a register in a listing (R110). -/
def regName (x : Reg) : String := "V" ++ hex x.val 1

/-- The assembler syntax of R110. -/
def Instr.asm : Instr → String
  | .cls => "CLS"
  | .ret => "RET"
  | .jp nnn => "JP " ++ hex nnn.toNat 3
  | .call nnn => "CALL " ++ hex nnn.toNat 3
  | .seImm x nn => "SE " ++ regName x ++ ", " ++ hex nn.toNat 2
  | .sneImm x nn => "SNE " ++ regName x ++ ", " ++ hex nn.toNat 2
  | .seReg x y => "SE " ++ regName x ++ ", " ++ regName y
  | .ldImm x nn => "LD " ++ regName x ++ ", " ++ hex nn.toNat 2
  | .addImm x nn => "ADD " ++ regName x ++ ", " ++ hex nn.toNat 2
  | .ldReg x y => "LD " ++ regName x ++ ", " ++ regName y
  | .orReg x y => "OR " ++ regName x ++ ", " ++ regName y
  | .andReg x y => "AND " ++ regName x ++ ", " ++ regName y
  | .xorReg x y => "XOR " ++ regName x ++ ", " ++ regName y
  | .addReg x y => "ADD " ++ regName x ++ ", " ++ regName y
  | .sub x y => "SUB " ++ regName x ++ ", " ++ regName y
  | .shr x y => "SHR " ++ regName x ++ ", " ++ regName y
  | .subn x y => "SUBN " ++ regName x ++ ", " ++ regName y
  | .shl x y => "SHL " ++ regName x ++ ", " ++ regName y
  | .sneReg x y => "SNE " ++ regName x ++ ", " ++ regName y
  | .ldI nnn => "LD I, " ++ hex nnn.toNat 3
  | .jpV0 nnn => "JP V0, " ++ hex nnn.toNat 3
  | .rnd x nn => "RND " ++ regName x ++ ", " ++ hex nn.toNat 2
  | .drw x y n => "DRW " ++ regName x ++ ", " ++ regName y ++ ", " ++ hex n.toNat 1
  | .skp x => "SKP " ++ regName x
  | .sknp x => "SKNP " ++ regName x
  | .ldVxDt x => "LD " ++ regName x ++ ", DT"
  | .ldVxK x => "LD " ++ regName x ++ ", K"
  | .ldDtVx x => "LD DT, " ++ regName x
  | .ldStVx x => "LD ST, " ++ regName x
  | .addIVx x => "ADD I, " ++ regName x
  | .ldFVx x => "LD F, " ++ regName x
  | .ldBVx x => "LD B, " ++ regName x
  | .ldMemVx x => "LD [I], " ++ regName x
  | .ldVxMem x => "LD " ++ regName x ++ ", [I]"

end Sys2Proof
end

