-- ==== Sys2Proof/Config.lean ====
section
/-! DEFINITION. What the spec leaves open: the parameters of 00_scope.md R11, a record that the state carries unchanged
(so that every statement about a state is a statement for every value of every parameter; log 1), and the free value of
CXNN (log 4). -/

namespace Sys2Proof

/-- `SHIFT_SRC`: the register 8XY6 and 8XYE shift (R171, D9). -/
inductive ShiftSrc where
  | vx
  | vy
  deriving DecidableEq, Repr

/-- `INVALID_OPCODE_POLICY`: what the caller does after `InvalidOpcode` (R11, R264, D5). -/
inductive InvalidOpcodePolicy where
  | halt
  | skip
  deriving DecidableEq, Repr

/-- The open parameters of R11, fixed for a run. -/
structure Params where
  /-- `SHIFT_SRC` (R171). -/
  shiftSrc : ShiftSrc
  /-- `FONT_BASE`, the address of the first glyph (R244); `Params.wf` states its constraint. -/
  fontBase : Word
  /-- `FONT_DATA`, the 80 glyph bytes (R246). -/
  fontData : Vector Byte 80
  /-- `INVALID_OPCODE_POLICY` (R264). -/
  invalidOpcodePolicy : InvalidOpcodePolicy
  /-- `AUTO_PAUSE_ON_FAULT` (R266). -/
  autoPauseOnFault : Bool
  deriving DecidableEq, Repr

/-- FREE VALUE (log 4): the byte that the n-th CXNN draw yields, `rand8` of R184.
It has no body, so nothing can be proved of it: "a free input of each CXNN step, constrained by nothing". -/
opaque Config.freeByte : Nat → Byte

end Sys2Proof
end

