-- ==== Sys2Proof/WellFormed.lean ====
section
/-! DEFINITION. The checks on data that the types do not carry: the constraint on the font's place (00_scope.md R11) and
the length of a program (70_reset_and_hazards.md R324). An instruction needs no check beyond its types: every value of
every field is legal (30_encoding.md R96). -/

namespace Sys2Proof

/-- Every operand of an instruction has the type of exactly its field, and "every value 0 to 15 is a legal register
number" (R96), so every term is well formed. -/
def Instr.wf : Instr → Bool := fun _ => true

/-- `FONT_BASE + 80 <= 0x200` (R11, R244). -/
def Params.wf (p : Params) : Bool := decide (p.fontBase.toNat + 80 ≤ 0x200)

/-- A program fits `PROGRAM_MAX` (R10) when its "total length ≤ 0xE00 (3584) bytes" (R324). -/
def programWf (bytes : List Byte) : Bool := decide (bytes.length ≤ 0xE00)

end Sys2Proof
end

