-- ==== Sys2Proof/Decode.lean ====
section
/-! DEFINITION. Decoding (30_encoding.md R91, R94, R97, R101, R104) and the encoder. The decoder branches as the map of R101
does; `opcodeRows` is the table of R100 as data. -/

namespace Sys2Proof

/-- Why bytes are no instruction: the rows of R104, and too few bytes for a word (R90). -/
inductive Illegal where
  /-- 0x0000 to 0x0FFF except 0x00E0 and 0x00EE. -/
  | major0
  /-- 0x5XYn with n not 0. -/
  | major5
  /-- 0x8XYn with n in 8, 9, A, B, C, D, F. -/
  | major8
  /-- 0x9XYn with n not 0. -/
  | major9
  /-- 0xEXnn with nn not 9E or A1. -/
  | majorE
  /-- 0xFXnn with nn not one of the nine of R101. -/
  | majorF
  /-- Fewer than two bytes: no instruction is shorter (R90). -/
  | truncated
  deriving DecidableEq, Repr

/-! ## The word and its fields -/

/-- `word[15:8]` is the byte at the lower address, `word[7:0]` the next one (R91). -/
def joinBytes (hi lo : Byte) : Word := hi ++ lo

/-- The two bytes of a word as memory holds them, the byte at the lower address first (R64). -/
def wordBytes (w : Word) : List Byte := [w.extractLsb' 8 8, w.extractLsb' 0 8]

/-- The major opcode `word[15:12]` (R94). -/
def opField (w : Word) : Nibble := w.extractLsb' 12 4

/-- `X = word[11:8]` (R94). -/
def xField (w : Word) : Reg := (w.extractLsb' 8 4).toFin

/-- `Y = word[7:4]` (R94). -/
def yField (w : Word) : Reg := (w.extractLsb' 4 4).toFin

/-- `N = word[3:0]` (R94). -/
def nField (w : Word) : Nibble := w.extractLsb' 0 4

/-- `NN = word[7:0]` (R94). -/
def nnField (w : Word) : Byte := w.extractLsb' 0 8

/-- `NNN = word[11:0]` (R94). -/
def nnnField (w : Word) : Addr := w.extractLsb' 0 12

/-- A register number as the 4 bits of its field (R94). -/
def regBits (x : Reg) : Nibble := BitVec.ofFin x

/-! ## Decoding -/

/-- Major opcode 0: the whole word decides (R101). -/
def decodeMajor0 (w : Word) : Except Illegal Instr :=
  if w = 0x00E0 then .ok .cls
  else if w = 0x00EE then .ok .ret
  else .error .major0

/-- Major opcode 8: the low nibble decides (R101). -/
def decodeMajor8 (x y : Reg) (n : Nibble) : Except Illegal Instr :=
  if n = 0x0 then .ok (.ldReg x y)
  else if n = 0x1 then .ok (.orReg x y)
  else if n = 0x2 then .ok (.andReg x y)
  else if n = 0x3 then .ok (.xorReg x y)
  else if n = 0x4 then .ok (.addReg x y)
  else if n = 0x5 then .ok (.sub x y)
  else if n = 0x6 then .ok (.shr x y)
  else if n = 0x7 then .ok (.subn x y)
  else if n = 0xE then .ok (.shl x y)
  else .error .major8

/-- Major opcode E: the low byte decides (R101). -/
def decodeMajorE (x : Reg) (nn : Byte) : Except Illegal Instr :=
  if nn = 0x9E then .ok (.skp x)
  else if nn = 0xA1 then .ok (.sknp x)
  else .error .majorE

/-- Major opcode F: the low byte decides (R101). -/
def decodeMajorF (x : Reg) (nn : Byte) : Except Illegal Instr :=
  if nn = 0x07 then .ok (.ldVxDt x)
  else if nn = 0x0A then .ok (.ldVxK x)
  else if nn = 0x15 then .ok (.ldDtVx x)
  else if nn = 0x18 then .ok (.ldStVx x)
  else if nn = 0x1E then .ok (.addIVx x)
  else if nn = 0x29 then .ok (.ldFVx x)
  else if nn = 0x33 then .ok (.ldBVx x)
  else if nn = 0x55 then .ok (.ldMemVx x)
  else if nn = 0x65 then .ok (.ldVxMem x)
  else .error .majorF

/-- Decode one word, by the map of R101; every other word is illegal (R104). -/
def decodeWord (w : Word) : Except Illegal Instr :=
  if opField w = 0x0 then decodeMajor0 w
  else if opField w = 0x1 then .ok (.jp (nnnField w))
  else if opField w = 0x2 then .ok (.call (nnnField w))
  else if opField w = 0x3 then .ok (.seImm (xField w) (nnField w))
  else if opField w = 0x4 then .ok (.sneImm (xField w) (nnField w))
  else if opField w = 0x5 then
    if nField w = 0x0 then .ok (.seReg (xField w) (yField w)) else .error .major5
  else if opField w = 0x6 then .ok (.ldImm (xField w) (nnField w))
  else if opField w = 0x7 then .ok (.addImm (xField w) (nnField w))
  else if opField w = 0x8 then decodeMajor8 (xField w) (yField w) (nField w)
  else if opField w = 0x9 then
    if nField w = 0x0 then .ok (.sneReg (xField w) (yField w)) else .error .major9
  else if opField w = 0xA then .ok (.ldI (nnnField w))
  else if opField w = 0xB then .ok (.jpV0 (nnnField w))
  else if opField w = 0xC then .ok (.rnd (xField w) (nnField w))
  else if opField w = 0xD then .ok (.drw (xField w) (yField w) (nField w))
  else if opField w = 0xE then decodeMajorE (xField w) (nnField w)
  else decodeMajorF (xField w) (nnField w)

/-- Decode the instruction at the head of a byte sequence, and the bytes after it. -/
def decodeBytes : List Byte → Except Illegal (Instr × List Byte)
  | hi :: lo :: rest =>
    match decodeWord (joinBytes hi lo) with
    | .ok i => .ok (i, rest)
    | .error e => .error e
  | _ => .error .truncated

/-- The instruction whose bits, numbered as spec/opcode_table.json numbers them, are the low `nbits` of `w`. -/
def decodeTableWord (nbits w : Nat) : Option Instr :=
  match decodeBytes (wordBytes (BitVec.ofNat 16 (w % 2 ^ nbits))) with
  | .ok (i, _) => some i
  | .error _ => none

/-! ## Encoding -/

/-- Format A (R95): opcode nibble, 12-bit address. -/
def formatA (op : Nibble) (nnn : Addr) : Word := op ++ nnn

/-- Formats I and S (R95): opcode nibble, register, byte; the byte is the immediate of I and the minor opcode of S. -/
def formatI (op : Nibble) (x : Reg) (nn : Byte) : Word := op ++ regBits x ++ nn

/-- Formats R and D (R95): opcode nibble, two registers, nibble; the last is the minor opcode of R and the row count of D. -/
def formatR (op : Nibble) (x y : Reg) (n : Nibble) : Word := op ++ regBits x ++ regBits y ++ n

/-- The word of an instruction, from its pattern in R100. -/
def encode : Instr → Word
  | .cls => 0x00E0
  | .ret => 0x00EE
  | .jp nnn => formatA 0x1 nnn
  | .call nnn => formatA 0x2 nnn
  | .seImm x nn => formatI 0x3 x nn
  | .sneImm x nn => formatI 0x4 x nn
  | .seReg x y => formatR 0x5 x y 0x0
  | .ldImm x nn => formatI 0x6 x nn
  | .addImm x nn => formatI 0x7 x nn
  | .ldReg x y => formatR 0x8 x y 0x0
  | .orReg x y => formatR 0x8 x y 0x1
  | .andReg x y => formatR 0x8 x y 0x2
  | .xorReg x y => formatR 0x8 x y 0x3
  | .addReg x y => formatR 0x8 x y 0x4
  | .sub x y => formatR 0x8 x y 0x5
  | .shr x y => formatR 0x8 x y 0x6
  | .subn x y => formatR 0x8 x y 0x7
  | .shl x y => formatR 0x8 x y 0xE
  | .sneReg x y => formatR 0x9 x y 0x0
  | .ldI nnn => formatA 0xA nnn
  | .jpV0 nnn => formatA 0xB nnn
  | .rnd x nn => formatI 0xC x nn
  | .drw x y n => formatR 0xD x y n
  | .skp x => formatI 0xE x 0x9E
  | .sknp x => formatI 0xE x 0xA1
  | .ldVxDt x => formatI 0xF x 0x07
  | .ldVxK x => formatI 0xF x 0x0A
  | .ldDtVx x => formatI 0xF x 0x15
  | .ldStVx x => formatI 0xF x 0x18
  | .addIVx x => formatI 0xF x 0x1E
  | .ldFVx x => formatI 0xF x 0x29
  | .ldBVx x => formatI 0xF x 0x33
  | .ldMemVx x => formatI 0xF x 0x55
  | .ldVxMem x => formatI 0xF x 0x65

/-- The bytes of an instruction, as memory holds them. -/
def encodeBytes (i : Instr) : List Byte := wordBytes (encode i)

/-! ## The opcode table as data -/

/-- One row of R100: an instruction matches a word `w` when `w &&& mask = pattern` (R97). -/
structure OpcodeRow where
  mnemonic : String
  mask : Word
  pattern : Word
  deriving DecidableEq, Repr

/-- The 34 rows of R100, in the table's order. -/
def opcodeRows : List OpcodeRow :=
  [⟨"CLS", 0xFFFF, 0x00E0⟩,
   ⟨"RET", 0xFFFF, 0x00EE⟩,
   ⟨"JP", 0xF000, 0x1000⟩,
   ⟨"CALL", 0xF000, 0x2000⟩] ++
  [⟨"SE_IMM", 0xF000, 0x3000⟩,
   ⟨"SNE_IMM", 0xF000, 0x4000⟩,
   ⟨"SE_REG", 0xF00F, 0x5000⟩,
   ⟨"LD_IMM", 0xF000, 0x6000⟩,
   ⟨"ADD_IMM", 0xF000, 0x7000⟩] ++
  [⟨"LD_REG", 0xF00F, 0x8000⟩,
   ⟨"OR", 0xF00F, 0x8001⟩,
   ⟨"AND", 0xF00F, 0x8002⟩,
   ⟨"XOR", 0xF00F, 0x8003⟩,
   ⟨"ADD_REG", 0xF00F, 0x8004⟩,
   ⟨"SUB", 0xF00F, 0x8005⟩,
   ⟨"SHR", 0xF00F, 0x8006⟩,
   ⟨"SUBN", 0xF00F, 0x8007⟩,
   ⟨"SHL", 0xF00F, 0x800E⟩] ++
  [⟨"SNE_REG", 0xF00F, 0x9000⟩,
   ⟨"LD_I", 0xF000, 0xA000⟩,
   ⟨"JP_V0", 0xF000, 0xB000⟩,
   ⟨"RND", 0xF000, 0xC000⟩,
   ⟨"DRW", 0xF000, 0xD000⟩,
   ⟨"SKP", 0xF0FF, 0xE09E⟩,
   ⟨"SKNP", 0xF0FF, 0xE0A1⟩] ++
  [⟨"LD_VX_DT", 0xF0FF, 0xF007⟩,
   ⟨"LD_VX_K", 0xF0FF, 0xF00A⟩,
   ⟨"LD_DT_VX", 0xF0FF, 0xF015⟩,
   ⟨"LD_ST_VX", 0xF0FF, 0xF018⟩,
   ⟨"ADD_I_VX", 0xF0FF, 0xF01E⟩,
   ⟨"LD_F_VX", 0xF0FF, 0xF029⟩,
   ⟨"LD_B_VX", 0xF0FF, 0xF033⟩,
   ⟨"LD_MEM_VX", 0xF0FF, 0xF055⟩,
   ⟨"LD_VX_MEM", 0xF0FF, 0xF065⟩]

/-- A row matches a word (R97). -/
def rowMatches (r : OpcodeRow) (w : Word) : Bool := w &&& r.mask == r.pattern

end Sys2Proof
end

