-- ==== Sys2Proof/Machine/Defaults.lean ====
section
/-! DEFINITION. The spec's default values for the open parameters of 00_scope.md R11 (log 1, 2, 9). They enter the model at
State.reset only; no meaning reads this file. -/

namespace Sys2Proof.Machine

/-- The glyphs of digits 0 to 4, five rows each (49_index_memory.md R246). -/
def fontDigits0To4 : Vector Byte 25 :=
  #v[0xF0, 0x90, 0x90, 0x90, 0xF0,
     0x20, 0x60, 0x20, 0x20, 0x70,
     0xF0, 0x10, 0xF0, 0x80, 0xF0,
     0xF0, 0x10, 0xF0, 0x10, 0xF0,
     0x90, 0x90, 0xF0, 0x10, 0x10]

/-- The glyphs of digits 5 to 9 (R246). -/
def fontDigits5To9 : Vector Byte 25 :=
  #v[0xF0, 0x80, 0xF0, 0x10, 0xF0,
     0xF0, 0x80, 0xF0, 0x90, 0xF0,
     0xF0, 0x10, 0x20, 0x40, 0x40,
     0xF0, 0x90, 0xF0, 0x90, 0xF0,
     0xF0, 0x90, 0xF0, 0x10, 0xF0]

/-- The glyphs of digits A to F (R246). -/
def fontDigitsAToF : Vector Byte 30 :=
  #v[0xF0, 0x90, 0xF0, 0x90, 0x90,
     0xE0, 0x90, 0xE0, 0x90, 0xE0,
     0xF0, 0x80, 0x80, 0x80, 0xF0,
     0xE0, 0x90, 0x90, 0x90, 0xE0,
     0xF0, 0x80, 0xF0, 0x80, 0xF0,
     0xF0, 0x80, 0xF0, 0x80, 0x80]

/-- The customary font of R246, `FONT_DATA`'s default. -/
def defaultFont : Vector Byte 80 := (fontDigits0To4 ++ fontDigits5To9 ++ fontDigitsAToF).cast rfl

/-- The defaults of R11 and R264: `SHIFT_SRC = VX`, `FONT_BASE = 0x000`, the font of R246, halt, auto-pause. -/
def defaultParams : Params where
  shiftSrc := .vx
  fontBase := 0x000
  fontData := defaultFont
  invalidOpcodePolicy := .halt
  autoPauseOnFault := true

/-- `RESET_PC`, which is also `PROGRAM_BASE` (R10, R24). -/
def resetPc : Word := 0x200

end Sys2Proof.Machine
end

