-- ==== Sys2Proof/Machine/State.lean ====
section
/-! DEFINITION. The machine's state as plain data (10_state.md), the events that act on it (00_scope.md R5, R8), the ways
a step can stop (60_exceptions.md R260), and the state after reset (R55, R320). -/

namespace Sys2Proof.Machine

/-- MEM as pairs of address and byte, in one canonical form: addresses rising, below 4096, and no pair equal to what an
unlisted address reads as (`unlisted`; log 5). -/
abbrev Memory := List Host.Cell

/-- FB: 32 rows, top first, of 64 pixels, left first; `true` is lit (R35). -/
abbrev FrameBuffer := Vector (Vector Bool 64) 32

/-- KW, the key-wait latch (R44). -/
inductive KeyWait where
  | idle
  /-- FX0A with register field `x` has been fetched; no key has been captured. -/
  | waiting (x : Reg)
  /-- Key `k` ended the wait; the next step completes the FX0A. -/
  | captured (x : Reg) (k : Key)
  deriving DecidableEq, Repr

/-- One atomic event of one agent (R5, R6, R8, R290 to R296). -/
inductive Event where
  /-- The Executor, driven automatically (R92; gated by `run`, R290). -/
  | step
  /-- The Timer Unit (R280). -/
  | tick
  /-- The keyboard collaborator (R285). -/
  | setKey (code : Key) (pressed : Bool)
  /-- `pause()` (R290). -/
  | pause
  /-- `resume()` (R290). -/
  | resume
  /-- `single_step()` (R291). -/
  | singleStep
  /-- `restart()` (R322). -/
  | restart
  /-- Program load (R324). -/
  | loadProgram (bytes : List Byte)
  /-- `save_state(slot)` (R295). -/
  | saveState (slot : Slot)
  /-- `load_state(slot)` (R296). -/
  | loadState (slot : Slot)
  deriving DecidableEq, Repr

/-- A snapshot: "MEM, V, I, PC, STACK, DT, ST, FB, KEYS and KW" (R295). -/
structure Snapshot where
  v : Vector Byte 16
  i : Word
  pc : Word
  stack : List Word
  dt : Byte
  st : Byte
  fb : FrameBuffer
  keys : Vector Bool 16
  kw : KeyWait
  mem : Memory
  deriving DecidableEq, Repr

/-- The state. The first ten fields are the block's state (10_state.md), the next three are host-side state that the
block's rules refer to (R50; log 11), `params` is fixed for a run (R11; log 1), `inputs` and `draws` are the model's own
(log 10, log 4). -/
structure State where
  /-- V0 to VF (R20). -/
  v : Vector Byte 16
  /-- I, stored unmasked (R23). -/
  i : Word
  /-- PC, stored unmasked (R24). -/
  pc : Word
  /-- STACK, most recent last; SP is its length (R27). -/
  stack : List Word
  /-- DT, the delay timer (R30). -/
  dt : Byte
  /-- ST, the sound timer (R31). -/
  st : Byte
  /-- FB, the display buffer (R35). -/
  fb : FrameBuffer
  /-- KEYS, the key-down flags (R40). -/
  keys : Vector Bool 16
  /-- KW, the key-wait latch (R44). -/
  kw : KeyWait
  /-- MEM (R48, R60). -/
  mem : Memory
  /-- `run`: Running or Paused (R290). -/
  run : Bool
  /-- The original program bytes, kept by the host for `restart` (R50, R322). -/
  program : List Byte
  /-- The ten snapshot slots (R50, R295). -/
  slots : Vector (Option Snapshot) 10
  /-- The open parameters (R11). -/
  params : Params
  /-- The events still to be delivered, oldest first; where none is left the host drives `step` (log 10). -/
  inputs : List Event
  /-- How many random bytes have been drawn (log 4). -/
  draws : Nat
  deriving DecidableEq, Repr

/-- The three faults of R260. Each carries what R261 to R263 say it carries, and `left`, the state the faulting step
leaves (R264: PC advanced, nothing else changed), from which the host may go on (R271; log 8). Stopping here is SAFE: a run
that the host continues is a run from `left`. -/
inductive Fault where
  /-- Raised by the executor when the fetched `word` matches no pattern; `addr` is where it was fetched (R261). Safe. -/
  | invalidOpcode (word addr : Word) (left : State)
  /-- Raised by 2NNN at `addr` when the stack holds 16 entries (R262). Safe. -/
  | stackOverflow (addr : Word) (left : State)
  /-- Raised by 00EE at `addr` when the stack is empty (R263). Safe. -/
  | stackUnderflow (addr : Word) (left : State)
  deriving DecidableEq, Repr

/-- Refusals. Every instruction has a meaning, so no step of this model ends in one. -/
inductive Refusal where
  /-- For an arm of `exec` without a meaning; raised by nothing in this model. Safe. -/
  | notModelled (mnemonic : String)
  deriving DecidableEq, Repr

/-- The state after power-on with the default parameters and the empty program (R55, R320; log 34): memory lists nothing,
because an unlisted address reads as R320 fills it. -/
def State.reset : State where
  v := .replicate 16 0
  i := 0
  pc := resetPc
  stack := []
  dt := 0
  st := 0
  fb := .replicate 32 (.replicate 64 false)
  keys := .replicate 16 false
  kw := .idle
  mem := []
  run := true
  program := []
  slots := .replicate 10 none
  params := defaultParams
  inputs := []
  draws := 0

end Sys2Proof.Machine
end

