-- ==== Sys2Proof/Machine/Ops.lean ====
section
/-! DEFINITION. The named operations over registers, stack, PC and memory that the meanings share, and raising a fault
(00_scope.md R14, 20_memory.md R61 to R64, 10_state.md R20 to R27, 60_exceptions.md R264). -/

namespace Sys2Proof.Machine

/-! ## One named update per field -/

def State.setV (s : State) (v : Vector Byte 16) : State := { s with v := v }
def State.setI (s : State) (w : Word) : State := { s with i := w }
def State.setPc (s : State) (w : Word) : State := { s with pc := w }
def State.setStack (s : State) (l : List Word) : State := { s with stack := l }
def State.setDt (s : State) (b : Byte) : State := { s with dt := b }
def State.setSt (s : State) (b : Byte) : State := { s with st := b }
def State.setFb (s : State) (f : FrameBuffer) : State := { s with fb := f }
def State.setKeys (s : State) (k : Vector Bool 16) : State := { s with keys := k }
def State.setKw (s : State) (k : KeyWait) : State := { s with kw := k }
def State.setMem (s : State) (m : Memory) : State := { s with mem := m }
def State.setRun (s : State) (b : Bool) : State := { s with run := b }
def State.setProgram (s : State) (p : List Byte) : State := { s with program := p }
def State.setSlots (s : State) (l : Vector (Option Snapshot) 10) : State := { s with slots := l }
def State.setInputs (s : State) (l : List Event) : State := { s with inputs := l }
def State.setDraws (s : State) (n : Nat) : State := { s with draws := n }

/-! ## Registers (R20) -/

/-- `V[x]`. -/
def State.reg (s : State) (x : Reg) : Byte := s.v[x.val]

/-- `V[x] <- b`. -/
def State.setReg (s : State) (x : Reg) (b : Byte) : State := s.setV (s.v.set x.val b)

/-- VF, the register that doubles as the flag (R21). -/
def vf : Reg := 15

/-- `V[r] <- b0, V[r+1] <- b1, ...`, ascending (R252). -/
def State.setRegsFrom (s : State) (r : Nat) : List Byte → State
  | [] => s
  | b :: bs => (s.setReg (Fin.ofNat 16 r) b).setRegsFrom (r + 1) bs

/-- `V[0], ..., V[n-1]`, ascending (R250). -/
def State.firstRegs (s : State) (n : Nat) : List Byte := s.v.toList.take n

/-! ## The program counter (R24, R25) -/

/-- `PC <- (PC + 2) mod 2^16`: the advance of the step frame (R92). -/
def State.advance (s : State) : State := s.setPc (s.pc + 2)

/-- Inside an instruction PC is already `A + 2`; this is `A`, the instruction's own address (R92). -/
def State.insnAddr (s : State) : Word := s.pc - 2

/-- Skip the next instruction, 2 bytes (R144), when the condition holds. -/
def State.skipIf (s : State) (c : Bool) : State := if c then s.setPc (s.pc + 2) else s

/-! ## The call stack (R27) -/

/-- `SP = depth(STACK)`. -/
def State.sp (s : State) : Nat := s.stack.length

/-- `push(w)` appends `w`. -/
def State.push (s : State) (w : Word) : State := s.setStack (s.stack ++ [w])

/-! ## Memory (R48, R60 to R64) -/

/-- What an address that nothing has written reads as: R320's power-on contents, the font at `FONT_BASE` and 0 elsewhere
(log 5). -/
def unlisted (p : Params) (a : Nat) : Byte :=
  if p.fontBase.toNat ≤ a then p.fontData.toList.getD (a - p.fontBase.toNat) 0 else 0

/-- The byte at an address. -/
def memRead (p : Params) : Memory → Nat → Byte
  | [], a => unlisted p a
  | (k, b) :: m, a => if k = a then b else memRead p m a

/-- Put a pair at its place in the rising order, over an earlier pair of the same address. -/
def memInsert (a : Nat) (b : Byte) : Memory → Memory
  | [] => [(a, b)]
  | (k, c) :: m =>
    if a < k then (a, b) :: (k, c) :: m
    else if a = k then (a, b) :: m
    else (k, c) :: memInsert a b m

/-- Take an address out of the list. -/
def memErase (a : Nat) (m : Memory) : Memory := m.filter (fun c => c.1 != a)

/-- Write a byte, keeping the canonical form: the unlisted value is not listed. -/
def memWrite (p : Params) (m : Memory) (a : Nat) (b : Byte) : Memory :=
  if b = unlisted p a then memErase a m else memInsert a b m

/-- The addresses rise strictly. -/
def memRising : Memory → Bool
  | [] => true
  | [_] => true
  | c :: d :: m => decide (c.1 < d.1) && memRising (d :: m)

/-- The canonical form: rising addresses, all in the 4096 bytes, none holding its unlisted value. -/
def Memory.wf (p : Params) (m : Memory) : Bool :=
  memRising m && m.all (fun c => decide (c.1 < 0x1000) && c.2 != unlisted p c.1)

/-- "address-masked to 12 bits": an address as any natural number, reduced (R61). -/
def maskAddr (a : Nat) : Nat := a % 0x1000

/-- `MemRead(a, 1)` (R62). -/
def State.readByte (s : State) (a : Nat) : Byte := memRead s.params s.mem (maskAddr a)

/-- `MemRead(a, 2)`, the byte at the lower address more significant (R62, R64). -/
def State.readWord (s : State) (a : Nat) : Word := joinBytes (s.readByte a) (s.readByte (a + 1))

/-- `MemWrite(a, 1, b)` (R63). -/
def State.writeByte (s : State) (a : Nat) (b : Byte) : State :=
  s.setMem (memWrite s.params s.mem (maskAddr a) b)

/-- One-byte writes at `a`, `a + 1`, ..., in ascending order (R63, R66). -/
def State.writeBytes (s : State) (a : Nat) : List Byte → State
  | [] => s
  | b :: bs => (s.writeByte a b).writeBytes (a + 1) bs

/-- `n` one-byte reads at `a`, `a + 1`, ..., in ascending order (R66). -/
def State.readBytes (s : State) (a : Nat) : Nat → List Byte
  | 0 => []
  | n + 1 => s.readByte a :: s.readBytes (a + 1) n

/-- The word a step fetches: `MemRead(PC, 2)` (R91). -/
def State.fetch (s : State) : Word := s.readWord s.pc.toNat

/-! ## Raising a fault (R264, R270) -/

/-- `raise <Fault>(info)`: the step ends in the state it has reached (PC advanced, nothing else changed), and the fault
with that state goes to the caller. There is no entry, vector or saved state inside the machine (R270). -/
def raise (f : State → Fault) (s : State) : Host.Outcome State Fault Refusal := .fault (f s)

end Sys2Proof.Machine
end

