-- ==== Sys2Proof/Machine/Flags.lean ====
section
/-! DEFINITION. Every flag computation (10_state.md R21, 44_alu.md R164 to R169, R172), and writing a result and then the
flag (R22, R169). -/

namespace Sys2Proof.Machine

/-- A flag as the value VF takes: 1 or 0 (R21). -/
def flagByte (c : Bool) : Byte := if c then 1 else 0

/-- Carry: the natural-number sum exceeds 255 (R164, R172). -/
def carry (a b : Byte) : Bool := decide (255 < a.toNat + b.toNat)

/-- NOT borrow of `a - b`: the minuend is at least the subtrahend (R165, R167, R172). -/
def notBorrow (a b : Byte) : Bool := decide (b.toNat ≤ a.toNat)

/-- The bit a right shift by one shifts out (R166). -/
def shiftedOutRight (a : Byte) : Bool := a.getLsbD 0

/-- The bit a left shift by one shifts out (R168). -/
def shiftedOutLeft (a : Byte) : Bool := a.getLsbD 7

/-- `V[F] <- 1 or 0`. -/
def State.setFlag (s : State) (c : Bool) : State := s.setReg vf (flagByte c)

/-- The result to `V[X]`, and the flag to VF last, so that for X = F the flag survives (R169). -/
def State.setResultAndFlag (s : State) (x : Reg) (result : Byte) (flag : Bool) : State :=
  (s.setReg x result).setFlag flag

end Sys2Proof.Machine
end

