-- ==== Sys2Proof/Machine/Operands.lean ====
section
/-! DEFINITION. Every operand form of the instruction set: immediates (30_encoding.md R96), the shifted operand
(44_alu.md R171), the key number (47_key_skip.md R212), the glyph address (49_index_memory.md R244), the bytes at I
(20_memory.md R61), the decimal digits (R248) and the random byte (R184). -/

namespace Sys2Proof.Machine

/-- `zext_16(NNN)` (R96). -/
def zextAddr (nnn : Addr) : Word := nnn.zeroExtend 16

/-- `zext_16(V[x])` (R182, R240). -/
def zextByte (b : Byte) : Word := b.zeroExtend 16

/-- A key code as a register value (R223). -/
def keyByte (k : Key) : Byte := BitVec.ofNat 8 k.val

/-- The operand `s` of 8XY6 and 8XYE: V[X] or V[Y] as `SHIFT_SRC` says (R171). -/
def State.shiftOperand (s : State) (x y : Reg) : Byte :=
  match s.params.shiftSrc with
  | .vx => s.reg x
  | .vy => s.reg y

/-- The key EX9E and EXA1 test: `V[X] & 0x0F` (R212). -/
def State.keyOperand (s : State) (x : Reg) : Key := ((s.reg x).extractLsb' 0 4).toFin

/-- `KEYS[k]` (R40). -/
def State.key (s : State) (k : Key) : Bool := s.keys[k.val]

/-- `FONT_STRIDE`, bytes per glyph (R11). -/
def fontStride : Word := 5

/-- `FONT_BASE + FONT_STRIDE * (V[X] & 0x0F)` (R244). -/
def State.glyphAddr (s : State) (x : Reg) : Word :=
  s.params.fontBase + fontStride * zextByte (s.reg x &&& 0x0F)

/-- `n` bytes at I, each address masked (R61, R66). -/
def State.bytesAtI (s : State) (n : Nat) : List Byte := s.readBytes s.i.toNat n

/-- The decimal digits of a byte: hundreds, tens, ones (R248). -/
def bcdDigits (b : Byte) : List Byte :=
  [BitVec.ofNat 8 (b.toNat / 100), BitVec.ofNat 8 (b.toNat / 10 % 10), BitVec.ofNat 8 (b.toNat % 10)]

/-- `rand8`: the free byte of the next draw (R184, log 4). -/
def State.randByte (s : State) : Byte := Config.freeByte s.draws

/-- The draw is used up, so that the next CXNN has a fresh one (R184). -/
def State.nextDraw (s : State) : State := s.setDraws (s.draws + 1)

end Sys2Proof.Machine
end

