-- ==== Sys2Proof/Machine/Display.lean ====
section
/-! DEFINITION. The display unit (46_draw.md R190 to R194): pixel coordinates that wrap, `clear`, `blit`, and the read port. -/

namespace Sys2Proof.Machine

/-- The pixel at row `y` and column `x`, "coordinates wrap modulo width/height", `FB_W` 64 and `FB_H` 32
(R10, R190). -/
def pixel (fb : FrameBuffer) (y x : Nat) : Bool :=
  (fb[y % 32]'(Nat.mod_lt y (by decide)))[x % 64]'(Nat.mod_lt x (by decide))

/-- `FB[y][x] <- FB[y][x] ^ 1` (R193). -/
def flipPixel (fb : FrameBuffer) (y x : Nat) : FrameBuffer :=
  fb.set (y % 32)
    ((fb[y % 32]'(Nat.mod_lt y (by decide))).set (x % 64) (!pixel fb y x) (Nat.mod_lt x (by decide)))
    (Nat.mod_lt y (by decide))

/-- `clear()`: every pixel dark (R120, R191). -/
def clearFb : FrameBuffer := .replicate 32 (.replicate 64 false)

/-- One 1 bit of a sprite: a lit pixel it meets is a collision, and the pixel toggles (R193). -/
def plot (x y : Nat) (acc : FrameBuffer × Bool) : FrameBuffer × Bool :=
  (flipPixel acc.1 y x, acc.2 || pixel acc.1 y x)

/-- Pixel offset `c` of a row is bit `7 - c`: bit 7 is the leftmost (R192). -/
def rowBit (row : Byte) (c : Nat) : Bool := row.getLsbD (7 - c)

/-- One row of a sprite, columns left to right (R193). -/
def blitRow (x y : Nat) (row : Byte) (acc : FrameBuffer × Bool) : FrameBuffer × Bool :=
  (List.range 8).foldl (fun acc c => if rowBit row c then plot (x + c) y acc else acc) acc

/-- The rows of a sprite, top to bottom (R193). -/
def blitRows (x y : Nat) : List Byte → FrameBuffer × Bool → FrameBuffer × Bool
  | [], acc => acc
  | row :: rows, acc => blitRows x (y + 1) rows (blitRow x y row acc)

/-- `blit(x, y, rows)`: the new buffer and the collision result (R193). -/
def blit (fb : FrameBuffer) (x y : Nat) (rows : List Byte) : FrameBuffer × Bool :=
  blitRows x y rows (fb, false)

/-- The display read port: "a read-only snapshot for rendering" (R9, R191). -/
def State.displayRead (s : State) : FrameBuffer := s.fb

end Sys2Proof.Machine
end

