-- ==== Sys2Proof/Machine/DisplayReturn.lean ====
section
/-! DEFINITION. 00E0 and 00EE (40_display_return.md). Inside every meaning PC already holds `A + 2` (30_encoding.md R92). -/

namespace Sys2Proof.Machine

/-- 00E0 CLS: all 2048 pixels dark (R120). -/
def execCls (s : State) : Host.Outcome State Fault Refusal := .next (s.setFb clearFb)

/-- 00EE RET: "pop stack into PC; `StackUnderflow` if stack empty" (R121). -/
def execRet (s : State) : Host.Outcome State Fault Refusal :=
  match s.stack.getLast? with
  | none => raise (.stackUnderflow s.insnAddr) s
  | some w => .next ((s.setStack s.stack.dropLast).setPc w)

end Sys2Proof.Machine
end

