-- ==== Sys2Proof/Machine/Draw.lean ====
section
/-! DEFINITION. DXYN (46_draw.md). -/

namespace Sys2Proof.Machine

/-- DXYN DRW: N bytes at I, XOR-blitted at (VX, VY); VF is the collision result, written after every read (R196). -/
def execDrw (x y : Reg) (n : Nibble) (s : State) : Host.Outcome State Fault Refusal :=
  let drawn := blit s.fb (s.reg x).toNat (s.reg y).toNat (s.bytesAtI n.toNat)
  .next ((s.setFb drawn.1).setFlag drawn.2)

end Sys2Proof.Machine
end

