-- ==== Sys2Proof/Machine/Immediate.lean ====
section
/-! DEFINITION. 6XNN and 7XNN (43_immediate.md). -/

namespace Sys2Proof.Machine

/-- 6XNN LD Vx, nn (R150). -/
def execLdImm (x : Reg) (nn : Byte) (s : State) : Host.Outcome State Fault Refusal := .next (s.setReg x nn)

/-- 7XNN ADD Vx, nn: modulo 256, "no carry flag change" (R151). -/
def execAddImm (x : Reg) (nn : Byte) (s : State) : Host.Outcome State Fault Refusal :=
  .next (s.setReg x (s.reg x + nn))

end Sys2Proof.Machine
end

