-- ==== Sys2Proof/Machine/IndexJumpRandom.lean ====
section
/-! DEFINITION. ANNN, BNNN, CXNN (45_index_jump_random.md). -/

namespace Sys2Proof.Machine

/-- ANNN LD I, nnn (R180). -/
def execLdI (nnn : Addr) (s : State) : Host.Outcome State Fault Refusal := .next (s.setI (zextAddr nnn))

/-- BNNN JP V0, nnn: always V0, the sum unmasked (R182). -/
def execJpV0 (nnn : Addr) (s : State) : Host.Outcome State Fault Refusal :=
  .next (s.setPc (zextAddr nnn + zextByte (s.reg 0)))

/-- CXNN RND: a fresh free byte AND the mask (R184). -/
def execRnd (x : Reg) (nn : Byte) (s : State) : Host.Outcome State Fault Refusal :=
  .next ((s.setReg x (s.randByte &&& nn)).nextDraw)

end Sys2Proof.Machine
end

