-- ==== Sys2Proof/Machine/IndexMemory.lean ====
section
/-! DEFINITION. FX1E, FX29, FX33, FX55, FX65 (49_index_memory.md). None of them writes VF as a flag, and FX33, FX55 and
FX65 leave I unchanged. -/

namespace Sys2Proof.Machine

/-- FX1E ADD I, Vx: modulo 2^16, no flag (R240). -/
def execAddIVx (x : Reg) (s : State) : Host.Outcome State Fault Refusal :=
  .next (s.setI (s.i + zextByte (s.reg x)))

/-- FX29 LD F, Vx (R244). -/
def execLdFVx (x : Reg) (s : State) : Host.Outcome State Fault Refusal := .next (s.setI (s.glyphAddr x))

/-- FX33 LD B, Vx: the three digits at I, I + 1, I + 2 (R248). -/
def execLdBVx (x : Reg) (s : State) : Host.Outcome State Fault Refusal :=
  .next (s.writeBytes s.i.toNat (bcdDigits (s.reg x)))

/-- FX55 LD [I], Vx: V0 to VX at I, ascending (R250). -/
def execLdMemVx (x : Reg) (s : State) : Host.Outcome State Fault Refusal :=
  .next (s.writeBytes s.i.toNat (s.firstRegs (x.val + 1)))

/-- FX65 LD Vx, [I]: V0 to VX from I, ascending (R252). -/
def execLdVxMem (x : Reg) (s : State) : Host.Outcome State Fault Refusal :=
  .next (s.setRegsFrom 0 (s.bytesAtI (x.val + 1)))

end Sys2Proof.Machine
end

