-- ==== Sys2Proof/Machine/JumpCall.lean ====
section
/-! DEFINITION. 1NNN and 2NNN (41_jump_call.md). -/

namespace Sys2Proof.Machine

/-- 1NNN JP (R130). -/
def execJp (nnn : Addr) (s : State) : Host.Outcome State Fault Refusal := .next (s.setPc (zextAddr nnn))

/-- 2NNN CALL: "push current PC, jump; `StackOverflow` if stack full"; PC is already the address after the call,
and the stack is full at `STACK_DEPTH`, 16 entries (R10, R131). -/
def execCall (nnn : Addr) (s : State) : Host.Outcome State Fault Refusal :=
  if 16 ≤ s.sp then raise (.stackOverflow s.insnAddr) s
  else .next ((s.push s.pc).setPc (zextAddr nnn))

end Sys2Proof.Machine
end

