-- ==== Sys2Proof/Machine/KeySkip.lean ====
section
/-! DEFINITION. EX9E and EXA1 (47_key_skip.md). -/

namespace Sys2Proof.Machine

/-- EX9E SKP Vx: skip when the key is down (R210). -/
def execSkp (x : Reg) (s : State) : Host.Outcome State Fault Refusal :=
  .next (s.skipIf (s.key (s.keyOperand x)))

/-- EXA1 SKNP Vx: skip when the key is up (R211). -/
def execSknp (x : Reg) (s : State) : Host.Outcome State Fault Refusal :=
  .next (s.skipIf (!s.key (s.keyOperand x)))

end Sys2Proof.Machine
end

