-- ==== Sys2Proof/Machine/TimerKeyWait.lean ====
section
/-! DEFINITION. FX07, FX0A, FX15, FX18, and the step that completes an FX0A (48_timer_keywait.md). -/

namespace Sys2Proof.Machine

/-- FX07 LD Vx, DT (R220). -/
def execLdVxDt (x : Reg) (s : State) : Host.Outcome State Fault Refusal := .next (s.setReg x s.dt)

/-- FX0A LD Vx, K, the step that fetches it: PC goes back to the instruction and the latch waits (R222). -/
def execLdVxK (x : Reg) (s : State) : Host.Outcome State Fault Refusal :=
  .next ((s.setPc s.insnAddr).setKw (.waiting x))

/-- The step that completes an FX0A: `V[x]` takes the key code, PC advances, the latch is idle (R223). -/
def completeKeyWait (x : Reg) (k : Key) (s : State) : State :=
  ((s.setReg x (keyByte k)).advance).setKw .idle

/-- FX15 LD DT, Vx (R225). -/
def execLdDtVx (x : Reg) (s : State) : Host.Outcome State Fault Refusal := .next (s.setDt (s.reg x))

/-- FX18 LD ST, Vx (R226). -/
def execLdStVx (x : Reg) (s : State) : Host.Outcome State Fault Refusal := .next (s.setSt (s.reg x))

end Sys2Proof.Machine
end

