-- ==== Sys2Proof/Machine/HostControl.lean ====
section
/-! DEFINITION. The host's control surface as far as the block can observe it: power-on, restart, program load, pause and
resume, snapshots, the dump, and the host's errors (60_exceptions.md R273, R290 to R296, 70_reset_and_hazards.md R320 to
R324). -/

namespace Sys2Proof.Machine

/-- The two host-side errors, "which are not faults of the block and change no block state" (R273). -/
inductive HostError where
  | programTooLarge
  | emptySlot
  deriving DecidableEq, Repr

/-- Byte `j` of the program to `MEM[0x200 + j]`, `PROGRAM_BASE` (R10, R324). -/
def State.storeProgram (s : State) (bytes : List Byte) : State := s.writeBytes 0x200 bytes

/-- Program load, which also makes the bytes the ones `restart` reloads (R50, R322, R324; log 30). -/
def loadProgram (bytes : List Byte) (s : State) : Except HostError State :=
  if programWf bytes then .ok ((s.storeProgram bytes).setProgram bytes) else .error .programTooLarge

/-- Power-on with a program and a choice of the open parameters (R320). -/
def powerOn (p : Params) (bytes : List Byte) : Except HostError State :=
  loadProgram bytes { State.reset with params := p }

/-- What both power-on and `restart` give the registers, timers, display and latch (R55, R322). -/
def State.clearBlock (s : State) : State :=
  { s with
    v := .replicate 16 0, i := 0, pc := resetPc, stack := [], dt := 0, st := 0, fb := clearFb, kw := .idle }

/-- `restart()`: KEYS, memory outside the program image, `run` and the slots are unchanged (R322). -/
def restart (s : State) : State := (s.storeProgram s.program).clearBlock

/-- `pause()`: Running to Paused (R290). -/
def pause (s : State) : State := s.setRun false

/-- `resume()`: Paused to Running (R290). -/
def resume (s : State) : State := s.setRun true

/-- The snapshot of the live machine (R295). -/
def State.snapshot (s : State) : Snapshot where
  v := s.v
  i := s.i
  pc := s.pc
  stack := s.stack
  dt := s.dt
  st := s.st
  fb := s.fb
  keys := s.keys
  kw := s.kw
  mem := s.mem

/-- Replace the live machine by a snapshot's contents (R296). -/
def State.restoreSnapshot (s : State) (n : Snapshot) : State :=
  { s with
    v := n.v, i := n.i, pc := n.pc, stack := n.stack, dt := n.dt, st := n.st, fb := n.fb, keys := n.keys, kw := n.kw,
    mem := n.mem }

/-- `save_state(slot)`: "overwriting any prior content", no block state changed (R295). -/
def saveState (slot : Slot) (s : State) : State := s.setSlots (s.slots.set slot.val (some s.snapshot))

/-- `load_state(slot)`: `EmptySlot` if the slot was never saved (R296). -/
def loadState (slot : Slot) (s : State) : Except HostError State :=
  match s.slots[slot.val] with
  | none => .error .emptySlot
  | some n => .ok (s.restoreSnapshot n)

/-- A host command's effect: one that fails with a host-side error changes nothing (R273; log 31). -/
def State.orUnchanged (s : State) : Except HostError State → State
  | .ok t => t
  | .error _ => s

/-- The error the host is told of when it issues an event, if any (R273; log 31). -/
def hostError (e : Event) (s : State) : Option HostError :=
  match e with
  | .loadProgram bytes => match loadProgram bytes s with | .ok _ => none | .error r => some r
  | .loadState slot => match loadState slot s with | .ok _ => none | .error r => some r
  | _ => none

/-- The diagnostic dump's fields (R9, R293); its text format is not the block's. -/
structure Dump where
  pc : Word
  v : Vector Byte 16
  i : Word
  sp : Nat
  stack : List Word
  deriving DecidableEq, Repr

/-- The dump is a pure read (R293). -/
def State.dump (s : State) : Dump where
  pc := s.pc
  v := s.v
  i := s.i
  sp := s.sp
  stack := s.stack

end Sys2Proof.Machine
end

