-- ==== Sys2Proof/Machine/Keypad.lean ====
section
/-! DEFINITION. The keypad's input event and the collaborator's layout (60_exceptions.md R285, R286, 10_state.md R45). -/

namespace Sys2Proof.Machine

/-- The latch after `set_key(code, pressed)`: a press of a key that is up, found while waiting, is captured (R45). -/
def captureKey (code : Key) (pressed : Bool) (s : State) : KeyWait :=
  match s.kw with
  | .waiting x => if pressed && !s.key code then .captured x code else .waiting x
  | .captured x k => .captured x k
  | .idle => .idle

/-- `set_key(code, pressed)`, accepted Running or Paused (R285). -/
def setKey (code : Key) (pressed : Bool) (s : State) : State :=
  (s.setKw (captureKey code pressed s)).setKeys (s.keys.set code.val pressed)

/-- The fixed layout `1234/QWER/ASDF/ZXCV` to codes (R286). The block sees only the codes. -/
def keyboardLayout : List (Char × Key) :=
  [('1', 0x1), ('2', 0x2), ('3', 0x3), ('4', 0xC)] ++
  [('Q', 0x4), ('W', 0x5), ('E', 0x6), ('R', 0xD)] ++
  [('A', 0x7), ('S', 0x8), ('D', 0x9), ('F', 0xE)] ++
  [('Z', 0xA), ('X', 0x0), ('C', 0xB), ('V', 0xF)]

end Sys2Proof.Machine
end

