-- ==== Sys2Proof/Machine/TimerUnit.lean ====
section
/-! DEFINITION. The timer unit (60_exceptions.md R280 to R283). -/

namespace Sys2Proof.Machine

/-- Decrement by 1 if nonzero (R280). -/
def countDown (b : Byte) : Byte := if b = 0 then 0 else b - 1

/-- `tick()`: while Running both timers count down; while Paused it has no effect (R280, R281). -/
def tick (s : State) : State :=
  if s.run then (s.setDt (countDown s.dt)).setSt (countDown s.st) else s

/-- The sound output, `sound_on = (ST != 0)` (R9, R283). -/
def State.soundOn (s : State) : Bool := s.st != 0

end Sys2Proof.Machine
end

