-- ==== Sys2Proof/Machine/Executor.lean ====
section
/-! DEFINITION. The executor's `step` event (30_encoding.md R92), the other agents' events (00_scope.md R5 to R8), which
event acts next (log 10), and what the caller does after a fault (60_exceptions.md R264, R266, R271; log 9). -/

namespace Sys2Proof.Machine

/-- Fetch, advance, decode, dispatch (R92 steps 2 to 4). -/
def runInstruction (s : State) : Host.Outcome State Fault Refusal :=
  match decodeWord s.fetch with
  | .ok i => exec i s.advance
  | .error _ => raise (.invalidOpcode s.fetch s.pc) s.advance

/-- The `step` event: the key-wait check, then one instruction (R92). -/
def executorStep (s : State) : Host.Outcome State Fault Refusal :=
  match s.kw with
  | .waiting _ => .next s
  | .captured x k => .next (completeKeyWait x k s)
  | .idle => runInstruction s

/-- One atomic event (R5, R6, R8). An automatic step is gated by `run`, a single step by its absence (R290, R291; log 12). -/
def applyEvent (e : Event) (s : State) : Host.Outcome State Fault Refusal :=
  match e with
  | .step => if s.run then executorStep s else .next s
  | .tick => .next (tick s)
  | .setKey code pressed => .next (setKey code pressed s)
  | .pause => .next (pause s)
  | .resume => .next (resume s)
  | .singleStep => if s.run then .next s else executorStep s
  | .restart => .next (restart s)
  | .loadProgram bytes => .next (s.orUnchanged (loadProgram bytes s))
  | .saveState slot => .next (saveState slot s)
  | .loadState slot => .next (s.orUnchanged (loadState slot s))

/-- The next event: the oldest one still to be delivered, or else the host's automatic driver issues `step` (log 10). -/
def nextEvent (s : State) : Event :=
  match s.inputs with
  | [] => .step
  | e :: _ => e

/-- The state with that event taken from the queue. -/
def State.dropEvent (s : State) : State := s.setInputs s.inputs.tail

/-- Deliver the next event. -/
def deliverEvent (s : State) : Host.Outcome State Fault Refusal := applyEvent (nextEvent s) s.dropEvent

/-- The caller's policy after a fault (R264, R266, R271): `none` is issuing no further step. After `InvalidOpcode` the
parameter chooses halt or skip; after a stack fault the host keeps the state the step left, paused if it auto-pauses. -/
def afterFault (f : Fault) : Option State :=
  match f with
  | .invalidOpcode _ _ left =>
    match left.params.invalidOpcodePolicy with
    | .halt => none
    | .skip => some left
  | .stackOverflow _ left => some (if left.params.autoPauseOnFault then pause left else left)
  | .stackUnderflow _ left => some (if left.params.autoPauseOnFault then pause left else left)

/-- One event and, if it faulted, the caller's policy; `none` is the end of the run (R330; log 9). -/
def drive (s : State) : Option State :=
  match deliverEvent s with
  | .next t => some t
  | .fault f => afterFault f
  | .refused _ => none

/-- Store an instruction word where the next step fetches and make the next event fetch it: nothing queued, Running, no
key wait (log 29). -/
def placeWord (s : State) (w : Word) : State :=
  (((s.writeBytes s.pc.toNat (wordBytes w)).setInputs []).setRun true).setKw .idle

end Sys2Proof.Machine
end

