-- ==== Sys2Proof/Machine/Step.lean ====
section
/-! DEFINITION. One step of the whole machine: one atomic event of one agent (00_scope.md R6). -/

namespace Sys2Proof.Machine

/-- One event (R5, R6): with nothing queued and Running, the executor's `step` of 30_encoding.md R92. -/
def step (s : State) : Host.Outcome State Fault Refusal := deliverEvent s

/-- `s` with the instruction whose low `nbits` bits are `w` stored where `step` fetches next (log 29). -/
def State.withFetchWord (s : State) (nbits w : Nat) : State := placeWord s (BitVec.ofNat 16 (w % 2 ^ nbits))

end Sys2Proof.Machine
end

