-- ==== Sys2Proof/Safety.lean ====
section
/-! DEFINITION. The terms claims are stated in: the state invariant (10_state.md R52), what a fault leaves (60_exceptions.md
R264), what an instruction leaves unchanged, where it leaves the PC (R25), and a sprite's pixels (46_draw.md R193). -/

namespace Sys2Proof.Machine

/-! ## The invariant -/

/-- R52 for the block's state, and the model's form of memory: at most 16 stack entries, memory canonical.
The widths of R52 are in the types. -/
def Snapshot.Inv (p : Params) (n : Snapshot) : Prop := n.stack.length ≤ 16 ∧ n.mem.wf p = true

/-- The invariant of the whole state: the font's place, the live machine, the kept program, and every saved snapshot. -/
def State.Inv (s : State) : Prop :=
  s.params.wf = true ∧ s.snapshot.Inv s.params ∧ programWf s.program = true ∧
    ∀ slot : Slot, ∀ n, s.slots[slot.val] = some n → n.Inv s.params

/-! ## Faults -/

/-- The state the faulting step left (R264). -/
def Fault.left : Fault → State
  | .invalidOpcode _ _ l => l
  | .stackOverflow _ l => l
  | .stackUnderflow _ l => l

/-- Apply a change to the state an outcome carries, whether the step went on or faulted. -/
def mapOutcome (g : State → State) : Host.Outcome State Fault Refusal → Host.Outcome State Fault Refusal
  | .next t => .next (g t)
  | .fault (.invalidOpcode w a l) => .fault (.invalidOpcode w a (g l))
  | .fault (.stackOverflow a l) => .fault (.stackOverflow a (g l))
  | .fault (.stackUnderflow a l) => .fault (.stackUnderflow a (g l))
  | .refused r => .refused r

/-! ## Frames -/

/-- The parts of the state a frame may except, beside registers and memory bytes. -/
inductive Part where
  | i
  | pc
  | stack
  | dt
  | st
  | fb
  | keys
  | kw
  | draws
  deriving DecidableEq, Repr

/-- What may change: V registers, masked memory addresses (R61), and other parts. -/
structure Footprint where
  regs : List Reg := []
  bytes : List Nat := []
  parts : List Part := []
  deriving DecidableEq, Repr

/-- Everything outside the footprint is unchanged from `s` to `t`; the host-side state and the parameters always are. -/
structure Unchanged (f : Footprint) (s t : State) : Prop where
  regs : ∀ r, r ∉ f.regs → t.reg r = s.reg r
  bytes : ∀ a, maskAddr a ∉ f.bytes → t.readByte a = s.readByte a
  i : Part.i ∉ f.parts → t.i = s.i
  pc : Part.pc ∉ f.parts → t.pc = s.pc
  stack : Part.stack ∉ f.parts → t.stack = s.stack
  dt : Part.dt ∉ f.parts → t.dt = s.dt
  st : Part.st ∉ f.parts → t.st = s.st
  fb : Part.fb ∉ f.parts → t.fb = s.fb
  keys : Part.keys ∉ f.parts → t.keys = s.keys
  kw : Part.kw ∉ f.parts → t.kw = s.kw
  draws : Part.draws ∉ f.parts → t.draws = s.draws
  run : t.run = s.run
  program : t.program = s.program
  slots : t.slots = s.slots
  params : t.params = s.params
  inputs : t.inputs = s.inputs

/-- The masked addresses of `n` bytes from `a` (R61). -/
def maskedRange (a n : Nat) : List Nat := (List.range n).map (fun k => maskAddr (a + k))

/-! ## Decoding -/

/-- Every word that matches a row's mask and pattern decodes to the row's instruction with the word's fields (R97). -/
def DecodesTo (mask pattern : Word) (f : Word → Instr) : Prop := ∀ w, w &&& mask = pattern → decodeWord w = .ok (f w)

/-! ## The program counter -/

/-- The state the executor's `step` event acts on: nothing else queued, Running, no key wait. -/
abbrev State.ready (s : State) : Prop := s.inputs = [] ∧ s.run = true ∧ s.kw = .idle

/-- R25's table: PC after a step that executed `i` and did not fault, from the state `s` at the start of the step.
For 00EE it is the popped entry, which exists when the step does not fault. -/
def pcAfter (i : Instr) (s : State) : Word :=
  match i with
  | .ret => s.stack.getLastD 0
  | .jp nnn => zextAddr nnn
  | .call nnn => zextAddr nnn
  | .jpV0 nnn => zextAddr nnn + zextByte (s.reg 0)
  | .seImm x nn => if s.reg x = nn then s.pc + 4 else s.pc + 2
  | .sneImm x nn => if s.reg x = nn then s.pc + 2 else s.pc + 4
  | .seReg x y => if s.reg x = s.reg y then s.pc + 4 else s.pc + 2
  | .sneReg x y => if s.reg x = s.reg y then s.pc + 2 else s.pc + 4
  | .skp x => if s.key (s.keyOperand x) then s.pc + 4 else s.pc + 2
  | .sknp x => if s.key (s.keyOperand x) then s.pc + 2 else s.pc + 4
  | .ldVxK _ => s.pc
  | _ => s.pc + 2

/-- The instructions that set PC themselves, beyond the step's advance, as they execute (R25). -/
def setsPc : Instr → Bool
  | .ret | .jp _ | .call _ | .jpV0 _ => true
  | .seImm _ _ | .sneImm _ _ | .seReg _ _ | .sneReg _ _ | .skp _ | .sknp _ => true
  | .ldVxK _ => true
  | _ => false

/-! ## Destinations -/

/-- The V registers an instruction writes when it executes: R20's list of writers, each with its destination, and VF for
those of R21's table. FX0A is not here: it writes in the step that completes it (R223). -/
def destinations : Instr → List Reg
  | .ldImm x _ | .addImm x _ | .rnd x _ => [x]
  | .ldReg x _ | .orReg x _ | .andReg x _ | .xorReg x _ => [x]
  | .addReg x _ | .sub x _ | .shr x _ | .subn x _ | .shl x _ => [x, vf]
  | .drw _ _ _ => [vf]
  | .ldVxDt x => [x]
  | .ldVxMem x => (List.finRange 16).filter (fun r => r ≤ x)
  | _ => []

/-! ## Flags -/

/-- The instructions of R21's table, which write VF as a flag. -/
def writesFlag : Instr → Bool
  | .addReg _ _ | .sub _ _ | .shr _ _ | .subn _ _ | .shl _ _ | .drw _ _ _ => true
  | _ => false

/-- The instructions whose destination is VF itself: an X field of 0xF on an instruction that writes `V[X]`, or FX65 with
X = 0xF (R21). -/
def destinationIsVf : Instr → Bool
  | .ldImm x _ | .addImm x _ | .rnd x _ => x == vf
  | .ldReg x _ | .orReg x _ | .andReg x _ | .xorReg x _ => x == vf
  | .ldVxDt x | .ldVxMem x => x == vf
  | _ => false

/-! ## Sprites -/

/-- A 1 bit of the sprite `rows`, drawn at column `x` and row `y`, lies over the screen pixel at row `py` and column `px`:
row `r`, bit `7 - c`, at `((y + r) mod 32, (x + c) mod 64)` (R192, R193). -/
def spriteCovers (rows : List Byte) (x y py px : Nat) : Prop :=
  ∃ r c, ∃ h : r < rows.length, c < 8 ∧ (rows[r]).getLsbD (7 - c) = true ∧
    (y + r) % 32 = py % 32 ∧ (x + c) % 64 = px % 64

/-! ## Runs of events -/

/-- Deliver events one after another, stopping at the first fault or refusal. -/
def runEvents : List Event → State → Host.Outcome State Fault Refusal
  | [], s => .next s
  | e :: es, s =>
    match applyEvent e s with
    | .next t => runEvents es t
    | .fault f => .fault f
    | .refused r => .refused r

/-- Call from each of the given return points in turn: PC holds the address after the call, and 2NNN executes (R131). -/
def nestCalls : List (Word × Addr) → State → Host.Outcome State Fault Refusal
  | [], s => .next s
  | c :: cs, s =>
    match exec (.call c.2) (s.setPc c.1) with
    | .next t => nestCalls cs t
    | .fault f => .fault f
    | .refused r => .refused r

end Sys2Proof.Machine
end

