-- ==== Sys2Proof/Certificates/Slice0/Obligations.lean ====
section
/-! DEFINITION. The statements for the provers. Inside `exec` PC already holds `A + 2`, the address after the instruction
(30_encoding.md R92), so an instruction that leaves PC alone leaves it at `A + 2`. -/

open Sys2Proof Sys2Proof.Machine

/-! ## Encoding and decoding -/

/-- Decoding an encoded instruction gives it back, as a word and as bytes at the head of any sequence
(30_encoding.md sections 2 to 4). -/
def Obligations.DecodeOfEncode : Prop :=
  ∀ i : Instr, i.wf = true →
    decodeWord (encode i) = .ok i ∧ ∀ rest, decodeBytes (encodeBytes i ++ rest) = .ok (i, rest)

/-- A word that decodes is the encoding of what it decodes to: no bit of a word is dropped and no two words are one
instruction (30_encoding.md R97, R101). -/
def Obligations.EncodeOfDecode : Prop :=
  ∀ (w : Word) (i : Instr), decodeWord w = .ok i → encode i = w

/-- The decoder by R101's map and the table of R100 agree on every word: what decodes matches the row of its mnemonic,
what matches a row decodes, and at most one row matches (R97, derived in the spec). -/
def Obligations.DecoderAgreesWithOpcodeTable : Prop :=
  (∀ (w : Word) (i : Instr), decodeWord w = .ok i → ∃ r ∈ opcodeRows, r.mnemonic = i.mnemonic ∧ rowMatches r w = true) ∧
  (∀ (w : Word) (r : OpcodeRow), r ∈ opcodeRows → rowMatches r w = true →
    ∃ i, decodeWord w = .ok i ∧ i.mnemonic = r.mnemonic) ∧
  (∀ (w : Word) (r q : OpcodeRow), r ∈ opcodeRows → q ∈ opcodeRows → rowMatches r w = true → rowMatches q w = true → r = q)

/-- The illegal words of R104, by number (the strict matching is the spec's decision D6). -/
def Obligations.IllegalWordsAreRejected : Prop :=
  ∀ w : Word,
    (w.toNat < 0x1000 → w ≠ 0x00E0 → w ≠ 0x00EE → decodeWord w = .error .major0) ∧
    (w.toNat / 4096 = 0x5 → w.toNat % 16 ≠ 0 → decodeWord w = .error .major5) ∧
    (w.toNat / 4096 = 0x8 → w.toNat % 16 ∈ [0x8, 0x9, 0xA, 0xB, 0xC, 0xD, 0xF] → decodeWord w = .error .major8) ∧
    (w.toNat / 4096 = 0x9 → w.toNat % 16 ≠ 0 → decodeWord w = .error .major9) ∧
    (w.toNat / 4096 = 0xE → w.toNat % 256 ∉ [0x9E, 0xA1] → decodeWord w = .error .majorE) ∧
    (w.toNat / 4096 = 0xF → w.toNat % 256 ∉ [0x07, 0x0A, 0x15, 0x18, 0x1E, 0x29, 0x33, 0x55, 0x65] →
      decodeWord w = .error .majorF)

/-- Words written out from the spec's examples decode to the instructions they stand for (a sanity statement). -/
def Obligations.WrittenOutWordsDecode : Prop :=
  decodeWord 0x00E0 = .ok .cls ∧ decodeWord 0x2300 = .ok (.call 0x300) ∧ decodeWord 0x332A = .ok (.seImm 3 0x2A) ∧
  decodeWord 0x8127 = .ok (.subn 1 2) ∧ decodeWord 0xA21F = .ok (.ldI 0x21F) ∧ decodeWord 0xD125 = .ok (.drw 1 2 5) ∧
  decodeWord 0xE4A1 = .ok (.sknp 4) ∧ decodeWord 0xF20A = .ok (.ldVxK 2) ∧ decodeWord 0xF155 = .ok (.ldMemVx 1) ∧
  decodeWord 0x0000 = .error .major0

/-! ## The step -/

/-- When the bytes at the PC decode to an instruction, a step is `exec` of it with PC already advanced by 2 (R92). -/
def Obligations.StepRunsDecodedInstruction : Prop :=
  ∀ (s : State) (i : Instr) (rest : List Byte), s.ready → i.wf = true →
    decodeBytes ([s.readByte s.pc.toNat, s.readByte (s.pc.toNat + 1)] ++ rest) = .ok (i, rest) →
      step s = exec i (s.setPc (s.pc + 2))

/-- A word that matches no pattern faults, with the word, its address, and PC advanced past it (R92, R261, R264; the PC a
fault leaves is the spec's decision D4). -/
def Obligations.StepFaultsOnIllegalWord : Prop :=
  ∀ (s : State) (e : Illegal), s.ready → decodeWord s.fetch = .error e →
    step s = .fault (.invalidOpcode s.fetch s.pc (s.setPc (s.pc + 2)))

/-- The fetched word's high byte is `MEM[PC & 0xFFF]`, its low byte `MEM[(PC + 1) & 0xFFF]` (R91). -/
def Obligations.FetchIsBigEndian : Prop :=
  ∀ s : State, s.fetch.toNat / 256 = (s.readByte (s.pc.toNat % 4096)).toNat ∧
    s.fetch.toNat % 256 = (s.readByte ((s.pc.toNat + 1) % 4096)).toNat

/-- The word stored at the PC, wherever the PC is, is the word the next fetch reads (R75, derived in the spec). -/
def Obligations.StoreIsSeenByNextFetch : Prop :=
  ∀ (s : State) (w : Word), (s.writeBytes s.pc.toNat (wordBytes w)).fetch = w

/-- R25's table of what a step does to PC, row by row: `A` is `s.pc` (the advance before execution, the PC a fault leaves and the
key wait's rows are the spec's decisions D1, D4 and D18). -/
def Obligations.PcAfterEveryStep : Prop :=
  ∀ s : State, s.inputs = [] → s.run = true →
    (∀ x, s.kw = .waiting x → ∃ t, step s = .next t ∧ t.pc = s.pc) ∧
    (∀ x k, s.kw = .captured x k → ∃ t, step s = .next t ∧ t.pc = s.pc + 2) ∧
    (∀ i t, s.kw = .idle → decodeWord s.fetch = .ok i → step s = .next t → t.pc = pcAfter i s) ∧
    (∀ nnn t, s.kw = .idle → decodeWord s.fetch = .ok (.call nnn) → step s = .next t → t.stack = s.stack ++ [s.pc + 2]) ∧
    (∀ f, step s = .fault f → f.left.pc = s.pc + 2)

/-! ## Whole-machine rules -/

/-- Every step, from every state that meets the invariant, ends in one that meets it, whether it goes on or faults. The bound
of 16 stack entries is R52 (derived in the spec). The canonical memory is the model's own form (log 5, DESIGN CHOICE of form),
the program's length is R324 and the font's place R11; all of them in the live machine and in every snapshot. R52's clause on PC
while the key wait is on is left out. -/
def Obligations.StepKeepsInvariant : Prop :=
  ∀ s : State, s.Inv → (∀ t, step s = .next t → t.Inv) ∧ (∀ f, step s = .fault f → f.left.Inv)

/-- The invariant holds after reset, and after power-on with any accepted program and any well-formed parameters. Its clause on
canonical memory is the model's own (log 5, DESIGN CHOICE of form), and that reset is power-on with the empty program and the
default parameters is log 34 (DESIGN CHOICE). -/
def Obligations.PowerOnMeetsInvariant : Prop :=
  State.reset.Inv ∧ ∀ (p : Params) (bytes : List Byte) (s : State), p.wf = true → powerOn p bytes = .ok s → s.Inv

/-- A faulting step leaves the state it started in with PC advanced by 2, and nothing else (R264, decision D4). -/
def Obligations.FaultLeavesOnlyPcAdvanced : Prop :=
  ∀ (s : State) (f : Fault), executorStep s = .fault f → f.left = s.setPc (s.pc + 2)

/-- A step faults exactly when an illegal word, a call on a full stack or a return on an empty one is fetched with no key
wait; in every other case it answers a next state (R269, derived in the spec; the stack bound is a premise because the full
stack has exactly 16 entries). -/
def Obligations.StepFaultsExactlyInThreeCases : Prop :=
  ∀ s : State, s.sp ≤ 16 →
    ((∃ f, executorStep s = .fault f) ↔
      s.kw = .idle ∧ ((∃ e, decodeWord s.fetch = .error e) ∨
        (∃ nnn, decodeWord s.fetch = .ok (.call nnn) ∧ s.sp = 16) ∨
        (decodeWord s.fetch = .ok .ret ∧ s.sp = 0))) ∧
    ((∃ t, executorStep s = .next t) ∨ ∃ f, executorStep s = .fault f)

/-- Who writes what: each part of the block's state changes only under the instructions the spec lists as its writers (a V
register only where it is a destination, R20; PC, beyond the step's own advance, only under R25's rows that set it); no
instruction writes KEYS or the host-side state (10_state.md sections 1 to 10, 00_scope.md R7). FX0A writes its V register in the
step that completes it, which is no execution of it (R223). The draw counter is the model's own field (log 4). -/
def Obligations.OnlyListedInstructionsWriteEachPart : Prop :=
  ∀ (i : Instr) (s t : State), exec i s = .next t →
    (∀ r, t.reg r ≠ s.reg r → r ∈ destinations i) ∧
    (t.pc ≠ s.pc → setsPc i = true) ∧
    (t.stack ≠ s.stack → i = .ret ∨ ∃ nnn, i = .call nnn) ∧
    (t.i ≠ s.i → (∃ nnn, i = .ldI nnn) ∨ (∃ x, i = .addIVx x) ∨ ∃ x, i = .ldFVx x) ∧
    (t.dt ≠ s.dt → ∃ x, i = .ldDtVx x) ∧
    (t.st ≠ s.st → ∃ x, i = .ldStVx x) ∧
    (t.fb ≠ s.fb → i = .cls ∨ ∃ x y n, i = .drw x y n) ∧
    (t.mem ≠ s.mem → (∃ x, i = .ldBVx x) ∨ ∃ x, i = .ldMemVx x) ∧
    (t.kw ≠ s.kw → ∃ x, i = .ldVxK x) ∧
    (t.draws ≠ s.draws → ∃ x nn, i = .rnd x nn) ∧
    t.keys = s.keys ∧ t.run = s.run ∧ t.program = s.program ∧ t.slots = s.slots ∧ t.params = s.params ∧ t.inputs = s.inputs

/-- VF changes only under the instructions of R21's table and those whose destination is VF; under the former it ends as
0 or 1 (R21, R22; that 8XY0 to 8XY3 and FX1E leave it alone is the spec's decision D8 and D10). -/
def Obligations.OnlyFlagInstructionsWriteVf : Prop :=
  ∀ (i : Instr) (s t : State), exec i s = .next t →
    (writesFlag i = true → t.reg vf = 0 ∨ t.reg vf = 1) ∧
    (writesFlag i = false → destinationIsVf i = false → t.reg vf = s.reg vf)

/-- No instruction reads ST: executing after a change of ST is executing and then changing ST, but for FX18, which
overwrites it (10_state.md section 6). -/
def Obligations.NoInstructionReadsSoundTimer : Prop :=
  ∀ (i : Instr) (s : State) (b : Byte), (∀ x, i ≠ .ldStVx x) →
    exec i (s.setSt b) = mapOutcome (fun t => t.setSt b) (exec i s)

/-- A tick and an instruction that does not name a timer commute: the timers are independent of the instruction stream
(60_exceptions.md section 5, 48_timer_keywait.md R227). -/
def Obligations.TickCommutesWithTimerFreeInstructions : Prop :=
  ∀ (i : Instr) (s : State), (∀ x, i ≠ .ldVxDt x) → (∀ x, i ≠ .ldDtVx x) → (∀ x, i ≠ .ldStVx x) →
    exec i (tick s) = mapOutcome tick (exec i s)

/-! ## 00E0, 00EE, 1NNN, 2NNN -/

/-- 00E0 CLS (R120). -/
def Obligations.ClearDisplayDarkensEveryPixel : Prop :=
  DecodesTo 0xFFFF 0x00E0 (fun _ => .cls) ∧
  ∀ s : State, ∃ t, exec .cls s = .next t ∧ (∀ y x, pixel t.fb y x = false) ∧ Unchanged { parts := [.fb] } s t

/-- 00EE RET: pops into PC, or raises StackUnderflow on an empty stack, which leaves the stack and PC alone (R121; that
the popped value is taken with no increment, and what the fault leaves, are the spec's decisions D1 and D4). -/
def Obligations.ReturnPopsIntoPc : Prop :=
  DecodesTo 0xFFFF 0x00EE (fun _ => .ret) ∧
  ∀ s : State,
    (∀ l w, s.stack = l ++ [w] →
      ∃ t, exec .ret s = .next t ∧ t.pc = w ∧ t.stack = l ∧ t.sp + 1 = s.sp ∧
        Unchanged { parts := [.pc, .stack] } s t) ∧
    (s.stack = [] → exec .ret s = .fault (.stackUnderflow (s.pc - 2) s))

/-- 1NNN JP (R130). -/
def Obligations.JumpSetsPc : Prop :=
  DecodesTo 0xF000 0x1000 (fun w => .jp (nnnField w)) ∧
  ∀ (s : State) (nnn : Addr), ∃ t, exec (.jp nnn) s = .next t ∧ t.pc.toNat = nnn.toNat ∧ Unchanged { parts := [.pc] } s t

/-- 2NNN CALL: pushes the PC it sees, the address after the call, and jumps; with 16 entries it raises StackOverflow and
changes nothing (R131; that the advanced PC is pushed is the spec's decision D1). -/
def Obligations.CallPushesPcAndJumps : Prop :=
  ∀ (s : State) (nnn : Addr),
    (s.sp < 16 → ∃ t, exec (.call nnn) s = .next t ∧ t.pc.toNat = nnn.toNat ∧ t.stack = s.stack ++ [s.pc] ∧
      Unchanged { parts := [.pc, .stack] } s t) ∧
    (s.sp = 16 → exec (.call nnn) s = .fault (.stackOverflow (s.pc - 2) s))

/-- A return after a call, whatever ran in between as long as the stack is back where the call left it, sets PC to the
address after the call (95_test_vectors.md S4; decision D1). -/
def Obligations.ReturnUndoesCall : Prop :=
  ∀ (s : State) (nnn : Addr), s.sp < 16 →
    ∃ t, exec (.call nnn) s = .next t ∧
      ∀ u : State, u.stack = t.stack → ∃ v, exec .ret u = .next v ∧ v.pc = s.pc ∧ v.stack = s.stack

/-- Calls nest to depth 16 and no deeper: from an empty stack, up to 16 nested calls complete and leave their return
addresses in order, and one more call after 16 overflows (95_test_vectors.md S4, P5). -/
def Obligations.CallsNestToDepthSixteen : Prop :=
  ∀ (s : State) (sites : List (Word × Addr)), s.stack = [] → sites.length ≤ 16 →
    ∃ t, nestCalls sites s = .next t ∧ t.stack = sites.map Prod.fst ∧
      (sites.length = 16 → ∀ nnn, exec (.call nnn) t = .fault (.stackOverflow (t.pc - 2) t))

/-! ## Skips -/

/-- 3XNN and 4XNN (R140, R141). -/
def Obligations.SkipOnImmediate : Prop :=
  DecodesTo 0xF000 0x3000 (fun w => .seImm (xField w) (nnField w)) ∧
  DecodesTo 0xF000 0x4000 (fun w => .sneImm (xField w) (nnField w)) ∧
  ∀ (s : State) (x : Reg) (nn : Byte),
    (∃ t, exec (.seImm x nn) s = .next t ∧ t.pc = (if s.reg x = nn then s.pc + 2 else s.pc) ∧
      Unchanged { parts := [.pc] } s t) ∧
    (∃ t, exec (.sneImm x nn) s = .next t ∧ t.pc = (if s.reg x = nn then s.pc else s.pc + 2) ∧
      Unchanged { parts := [.pc] } s t)

/-- 5XY0 and 9XY0; with another low nibble the word is illegal (R142, R143; the strict matching is the spec's decision D6). -/
def Obligations.SkipOnRegisters : Prop :=
  DecodesTo 0xF00F 0x5000 (fun w => .seReg (xField w) (yField w)) ∧
  DecodesTo 0xF00F 0x9000 (fun w => .sneReg (xField w) (yField w)) ∧
  (∀ w : Word, w &&& 0xF000 = 0x5000 → w &&& 0x000F ≠ 0 → decodeWord w = .error .major5) ∧
  (∀ w : Word, w &&& 0xF000 = 0x9000 → w &&& 0x000F ≠ 0 → decodeWord w = .error .major9) ∧
  ∀ (s : State) (x y : Reg),
    (∃ t, exec (.seReg x y) s = .next t ∧ t.pc = (if s.reg x = s.reg y then s.pc + 2 else s.pc) ∧
      Unchanged { parts := [.pc] } s t) ∧
    (∃ t, exec (.sneReg x y) s = .next t ∧ t.pc = (if s.reg x = s.reg y then s.pc else s.pc + 2) ∧
      Unchanged { parts := [.pc] } s t)

/-- EX9E and EXA1: the key is the low nibble of VX's value (R210 to R212, the nibble is the spec's decision D17). -/
def Obligations.SkipOnKey : Prop :=
  ∀ (s : State) (x : Reg) (k : Key), k.val = (s.reg x).toNat % 16 →
    (∃ t, exec (.skp x) s = .next t ∧ t.pc = (if s.keys[k.val] = true then s.pc + 2 else s.pc) ∧
      Unchanged { parts := [.pc] } s t) ∧
    (∃ t, exec (.sknp x) s = .next t ∧ t.pc = (if s.keys[k.val] = true then s.pc else s.pc + 2) ∧
      Unchanged { parts := [.pc] } s t)

/-! ## Immediates and the ALU -/

/-- 6XNN and 7XNN: VF is written only if it is VX (R150, R151). -/
def Obligations.LoadAndAddImmediate : Prop :=
  DecodesTo 0xF000 0x6000 (fun w => .ldImm (xField w) (nnField w)) ∧
  DecodesTo 0xF000 0x7000 (fun w => .addImm (xField w) (nnField w)) ∧
  ∀ (s : State) (x : Reg) (nn : Byte),
    (∃ t, exec (.ldImm x nn) s = .next t ∧ t.reg x = nn ∧ Unchanged { regs := [x] } s t) ∧
    (∃ t, exec (.addImm x nn) s = .next t ∧ (t.reg x).toNat = ((s.reg x).toNat + nn.toNat) % 256 ∧
      Unchanged { regs := [x] } s t)

/-- 8XY0 to 8XY3, bit by bit; VF is written only if it is VX (R160 to R163; the minor opcodes are the spec's recovery in
R100, that VF is left alone its decision D8). -/
def Obligations.AssignAndLogic : Prop :=
  DecodesTo 0xF00F 0x8000 (fun w => .ldReg (xField w) (yField w)) ∧
  DecodesTo 0xF00F 0x8001 (fun w => .orReg (xField w) (yField w)) ∧
  DecodesTo 0xF00F 0x8002 (fun w => .andReg (xField w) (yField w)) ∧
  DecodesTo 0xF00F 0x8003 (fun w => .xorReg (xField w) (yField w)) ∧
  ∀ (s : State) (x y : Reg),
    (∃ t, exec (.ldReg x y) s = .next t ∧ t.reg x = s.reg y ∧ Unchanged { regs := [x] } s t) ∧
    (∃ t, exec (.orReg x y) s = .next t ∧ Unchanged { regs := [x] } s t ∧
      ∀ k, (t.reg x).getLsbD k = ((s.reg x).getLsbD k || (s.reg y).getLsbD k)) ∧
    (∃ t, exec (.andReg x y) s = .next t ∧ Unchanged { regs := [x] } s t ∧
      ∀ k, (t.reg x).getLsbD k = ((s.reg x).getLsbD k && (s.reg y).getLsbD k)) ∧
    (∃ t, exec (.xorReg x y) s = .next t ∧ Unchanged { regs := [x] } s t ∧
      ∀ k, (t.reg x).getLsbD k = ((s.reg x).getLsbD k ^^ (s.reg y).getLsbD k))

/-- 8XY4 ADD: the natural-number sum modulo 256, VF its carry; for X = 0xF the carry survives, which is the spec's
decision D7 (R164, R169). -/
def Obligations.AddRegistersWithCarry : Prop :=
  ∀ (s : State) (x y : Reg), ∃ t, exec (.addReg x y) s = .next t ∧
    (x ≠ vf → (t.reg x).toNat = ((s.reg x).toNat + (s.reg y).toNat) % 256) ∧
    t.reg vf = (if (s.reg x).toNat + (s.reg y).toNat > 255 then 1 else 0) ∧
    Unchanged { regs := [x, vf] } s t

/-- 8XY5 SUB and 8XY7 SUBN: the difference modulo 256, VF 1 exactly when nothing is borrowed; for X = 0xF the flag
survives, which is the spec's decision D7 (R165, R167, R169). -/
def Obligations.SubtractBothWays : Prop :=
  ∀ (s : State) (x y : Reg),
    (∃ t, exec (.sub x y) s = .next t ∧
      (x ≠ vf → (t.reg x).toNat = ((s.reg x).toNat + 256 - (s.reg y).toNat) % 256) ∧
      t.reg vf = (if (s.reg x).toNat ≥ (s.reg y).toNat then 1 else 0) ∧ Unchanged { regs := [x, vf] } s t) ∧
    (∃ t, exec (.subn x y) s = .next t ∧
      (x ≠ vf → (t.reg x).toNat = ((s.reg y).toNat + 256 - (s.reg x).toNat) % 256) ∧
      t.reg vf = (if (s.reg y).toNat ≥ (s.reg x).toNat then 1 else 0) ∧ Unchanged { regs := [x, vf] } s t)

/-- 8XY6 SHR and 8XYE SHL by one bit, for either value of `SHIFT_SRC`: VF is the bit shifted out; for X = 0xF the flag
survives, which is the spec's decision D7 (R166, R168, R171). -/
def Obligations.ShiftsByOneBit : Prop :=
  ∀ (s : State) (x y z : Reg),
    (s.params.shiftSrc = .vx → z = x) → (s.params.shiftSrc = .vy → z = y) →
      (∃ t, exec (.shr x y) s = .next t ∧ (x ≠ vf → (t.reg x).toNat = (s.reg z).toNat / 2) ∧
        (t.reg vf).toNat = (s.reg z).toNat % 2 ∧ Unchanged { regs := [x, vf] } s t) ∧
      (∃ t, exec (.shl x y) s = .next t ∧ (x ≠ vf → (t.reg x).toNat = (s.reg z).toNat * 2 % 256) ∧
        (t.reg vf).toNat = (s.reg z).toNat / 128 ∧ Unchanged { regs := [x, vf] } s t)

/-! ## ANNN, BNNN, CXNN -/

/-- ANNN LD I, nnn (R180). -/
def Obligations.LoadIndex : Prop :=
  DecodesTo 0xF000 0xA000 (fun w => .ldI (nnnField w)) ∧
  ∀ (s : State) (nnn : Addr), ∃ t, exec (.ldI nnn) s = .next t ∧ t.i.toNat = nnn.toNat ∧ Unchanged { parts := [.i] } s t

/-- BNNN: PC is NNN plus V0, unmasked (R182; that it is stored unmasked is the spec's decision D2). -/
def Obligations.JumpWithOffsetV0 : Prop :=
  ∀ (s : State) (nnn : Addr), ∃ t, exec (.jpV0 nnn) s = .next t ∧ t.pc.toNat = nnn.toNat + (s.reg 0).toNat ∧
    Unchanged { parts := [.pc] } s t

/-- CXNN: VX is the free byte of this draw AND the mask, whatever that byte is, and the next draw is a fresh one (R184,
decision D19, log 4). -/
def Obligations.RandomByteIsMasked : Prop :=
  ∀ (s : State) (x : Reg) (nn : Byte), ∃ t, exec (.rnd x nn) s = .next t ∧ t.reg x = Config.freeByte s.draws &&& nn ∧
    (t.reg x).toNat ≤ nn.toNat ∧ (∀ k, nn.getLsbD k = false → (t.reg x).getLsbD k = false) ∧
    t.draws = s.draws + 1 ∧ Unchanged { regs := [x], parts := [.draws] } s t

/-! ## The display -/

/-- The blit, pixel by pixel: a sprite of at most 15 rows toggles exactly the pixels its 1 bits lie over, and the collision
result is whether one of those was lit (R193; that bit 7 is the leftmost pixel is the spec's decision D15). -/
def Obligations.BlitTogglesExactlySpritePixels : Prop :=
  ∀ (fb : FrameBuffer) (x y : Nat) (rows : List Byte), rows.length ≤ 15 →
    (∀ py px, pixel (blit fb x y rows).1 py px = true ↔
      ¬ (pixel fb py px = true ↔ spriteCovers rows x y py px)) ∧
    ((blit fb x y rows).2 = true ↔ ∃ py px, pixel fb py px = true ∧ spriteCovers rows x y py px)

/-- Blitting the same sprite twice restores the buffer, and the second collision result is whether the first blit turned a
pixel on (R194, derived in the spec). -/
def Obligations.BlitTwiceRestores : Prop :=
  ∀ (fb : FrameBuffer) (x y : Nat) (rows : List Byte), rows.length ≤ 15 →
    (blit (blit fb x y rows).1 x y rows).1 = fb ∧
    ((blit (blit fb x y rows).1 x y rows).2 = true ↔
      ∃ py px, pixel fb py px = false ∧ pixel (blit fb x y rows).1 py px = true)

/-- DXYN: the N bytes at I (masked addresses), drawn at (VX, VY) as they were before VF is written, toggle exactly the
pixels the sprite covers, and VF is 1 exactly when a lit pixel was erased (R196; that VX and VY are read first is the spec's
decision D30, that N = 0 draws nothing D16, the bit order D15). -/
def Obligations.DrawSprite : Prop :=
  ∀ (s : State) (x y : Reg) (n : Nibble), ∃ t, exec (.drw x y n) s = .next t ∧
    (∀ py px, pixel t.fb py px = true ↔
      ¬ (pixel s.fb py px = true ↔
        spriteCovers ((List.range n.toNat).map (fun r => s.readByte (s.i.toNat + r))) (s.reg x).toNat (s.reg y).toNat py px)) ∧
    (t.reg vf = 1 ↔ ∃ py px, pixel s.fb py px = true ∧ pixel t.fb py px = false) ∧
    (t.reg vf = 0 ∨ t.reg vf = 1) ∧
    Unchanged { regs := [vf], parts := [.fb] } s t

/-! ## Timers and the key wait -/

/-- FX07, FX15 and FX18 (R220, R225, R226; which timer each names is the spec's recovery in R100). -/
def Obligations.TimerReadsAndWrites : Prop :=
  ∀ (s : State) (x : Reg),
    (∃ t, exec (.ldVxDt x) s = .next t ∧ t.reg x = s.dt ∧ Unchanged { regs := [x] } s t) ∧
    (∃ t, exec (.ldDtVx x) s = .next t ∧ t.dt = s.reg x ∧ Unchanged { parts := [.dt] } s t) ∧
    (∃ t, exec (.ldStVx x) s = .next t ∧ t.st = s.reg x ∧ (t.soundOn = true ↔ s.reg x ≠ 0) ∧
      Unchanged { parts := [.st] } s t)

/-- A tick while Running takes 1 from each timer that is not 0; while Paused it changes nothing (R280, R281; decision
D25). -/
def Obligations.TickCountsDown : Prop :=
  ∀ (s : State) (rest : List Event), s.inputs = .tick :: rest →
    ∃ t, step s = .next t ∧ Unchanged { parts := [.dt, .st] } (s.setInputs rest) t ∧
      t.dt.toNat = (if s.run = true then s.dt.toNat - 1 else s.dt.toNat) ∧
      t.st.toNat = (if s.run = true then s.st.toNat - 1 else s.st.toNat)

/-- After n ticks while Running each timer is its start value less n, and never below 0 (95_test_vectors.md S6). -/
def Obligations.TimersDecayToZero : Prop :=
  ∀ (s : State) (n : Nat), s.run = true →
    (tick^[n] s).dt.toNat = s.dt.toNat - n ∧ (tick^[n] s).st.toNat = s.st.toNat - n ∧
    Unchanged { parts := [.dt, .st] } s (tick^[n] s)

/-- FX0A, the step that fetches it: PC back on the instruction, the latch waiting for its register, nothing else, whatever
keys are down (R222, decision D18). -/
def Obligations.KeyWaitBegins : Prop :=
  (∀ (s : State) (x : Reg), ∃ t, exec (.ldVxK x) s = .next t ∧ t.pc = s.pc - 2 ∧ t.kw = .waiting x ∧
    Unchanged { parts := [.pc, .kw] } s t) ∧
  (∀ (s : State) (x : Reg), s.ready → decodeWord s.fetch = .ok (.ldVxK x) →
    ∃ t, step s = .next t ∧ t.kw = .waiting x ∧ Unchanged { parts := [.kw] } s t)

/-- While the latch waits a step changes nothing; once it has captured a key the next step writes the key code to the
latch's register, advances PC by 2 and clears the latch, whatever is in memory (R223, decision D18). -/
def Obligations.KeyWaitHoldsAndCompletes : Prop :=
  ∀ (s : State) (x : Reg), s.inputs = [] → s.run = true →
    (s.kw = .waiting x → step s = .next s) ∧
    (∀ k : Key, s.kw = .captured x k →
      ∃ t, step s = .next t ∧ (t.reg x).toNat = k.val ∧ t.pc = s.pc + 2 ∧ t.kw = .idle ∧
        Unchanged { regs := [x], parts := [.pc, .kw] } s t)

/-- `set_key`: the flag takes the level; the latch captures exactly a press, while waiting, of a key that is up (R45, R285,
decision D18). -/
def Obligations.SetKeyAndCapture : Prop :=
  ∀ (s : State) (rest : List Event) (k : Key) (pressed : Bool), s.inputs = .setKey k pressed :: rest →
    ∃ t, step s = .next t ∧ Unchanged { parts := [.keys, .kw] } (s.setInputs rest) t ∧
      t.keys[k.val] = pressed ∧ (∀ j : Key, j ≠ k → t.keys[j.val] = s.keys[j.val]) ∧
      (∀ x, pressed = true → s.keys[k.val] = false → s.kw = .waiting x → t.kw = .captured x k) ∧
      ((pressed = false ∨ s.keys[k.val] = true ∨ ∀ x, s.kw ≠ .waiting x) → t.kw = s.kw)

/-- The whole wait: the first key to go down after it began is the one reported, whatever is pressed or released before the
step that completes it (R45, R223, decision D18; 95_test_vectors.md TK12 to TK14). -/
def Obligations.FirstPressEndsKeyWait : Prop :=
  ∀ (s : State) (x : Reg) (k : Key) (later : List (Key × Bool)), s.kw = .waiting x → s.keys[k.val] = false →
    s.run = true →
    ∃ t, runEvents (.setKey k true :: later.map (fun e => .setKey e.1 e.2) ++ [.step]) s = .next t ∧
      (t.reg x).toNat = k.val ∧ t.pc = s.pc + 2 ∧ t.kw = .idle ∧
      Unchanged { regs := [x], parts := [.pc, .kw, .keys] } s t

/-! ## I and memory -/

/-- FX1E and FX29: I modulo 2^16; the glyph of the low nibble of VX (R240, R244; decisions D2, D10, D11). -/
def Obligations.IndexArithmetic : Prop :=
  ∀ (s : State) (x : Reg),
    (∃ t, exec (.addIVx x) s = .next t ∧ t.i.toNat = (s.i.toNat + (s.reg x).toNat) % 65536 ∧
      Unchanged { parts := [.i] } s t) ∧
    (∃ t, exec (.ldFVx x) s = .next t ∧
      t.i.toNat = (s.params.fontBase.toNat + 5 * ((s.reg x).toNat % 16)) % 65536 ∧ Unchanged { parts := [.i] } s t)

/-- After FX29, while nothing has overwritten the font (no memory entry lies in its 80 bytes, whatever is loaded elsewhere), the
five bytes at I are the glyph of the digit (R244, R246; decisions D11, D12). -/
def Obligations.FontAddressFindsGlyph : Prop :=
  ∀ (s : State) (x : Reg), s.params.wf = true →
    (∀ c ∈ s.mem, c.1 < s.params.fontBase.toNat ∨ s.params.fontBase.toNat + 80 ≤ c.1) →
    ∃ t, exec (.ldFVx x) s = .next t ∧
      ∀ r, ∀ h : r < 5, t.readByte (t.i.toNat + r) =
        s.params.fontData[5 * ((s.reg x).toNat % 16) + r]'(by omega)

/-- FX33: hundreds, tens, ones at I, I + 1, I + 2, masked, and no other byte (R248, the order is the spec's decision D13). -/
def Obligations.StoreDecimalDigits : Prop :=
  ∀ (s : State) (x : Reg), ∃ t, exec (.ldBVx x) s = .next t ∧
    (t.readByte s.i.toNat).toNat = (s.reg x).toNat / 100 ∧
    (t.readByte (s.i.toNat + 1)).toNat = (s.reg x).toNat / 10 % 10 ∧
    (t.readByte (s.i.toNat + 2)).toNat = (s.reg x).toNat % 10 ∧
    Unchanged { bytes := maskedRange s.i.toNat 3 } s t

/-- FX55: V0 to VX at I and up, masked, and no other byte; I unchanged (R250, the range is the spec's decision D14). -/
def Obligations.DumpRegisters : Prop :=
  ∀ (s : State) (x : Reg), ∃ t, exec (.ldMemVx x) s = .next t ∧
    (∀ r : Reg, r ≤ x → t.readByte (s.i.toNat + r.val) = s.reg r) ∧
    Unchanged { bytes := maskedRange s.i.toNat (x.val + 1) } s t

/-- FX65: V0 to VX from I and up, masked, and no other register; I unchanged (R252, the range is the spec's decision
D14). -/
def Obligations.LoadRegisters : Prop :=
  ∀ (s : State) (x : Reg), ∃ t, exec (.ldVxMem x) s = .next t ∧
    (∀ r : Reg, r ≤ x → t.reg r = s.readByte (s.i.toNat + r.val)) ∧
    Unchanged { regs := (List.finRange 16).filter (fun r => r ≤ x) } s t

/-- Dumping registers and loading them back, from the same I and with memory untouched in between, restores V0 to VX
whatever happened to them (R250, R252; decision D14). -/
def Obligations.DumpThenLoadRestores : Prop :=
  ∀ (s u : State) (x : Reg), (∀ t, exec (.ldMemVx x) s = .next t → u.mem = t.mem ∧ u.params = t.params ∧ u.i = t.i) →
    ∃ v, exec (.ldVxMem x) u = .next v ∧ ∀ r : Reg, r ≤ x → v.reg r = s.reg r

/-- Addresses are masked to 12 bits, on reads and on writes, and it makes no difference whether they are first wrapped to
16 bits (R61). -/
def Obligations.AddressesWrapAtTwelveBits : Prop :=
  ∀ (s : State) (a : Nat) (b : Byte),
    s.readByte a = s.readByte (a % 4096) ∧ s.readByte a = s.readByte (a % 65536) ∧
    s.writeByte a b = s.writeByte (a % 4096) b ∧ s.writeByte a b = s.writeByte (a % 65536) b

/-! ## Reset and the host -/

/-- What reset leaves (R55, R320): the register, timer, stack and display values are the source's for `restart`; KEYS, KW
and memory are the spec's decision D21; the default parameters are log 1 and 2. -/
def Obligations.ResetValues : Prop :=
  (∀ r, State.reset.reg r = 0) ∧ State.reset.i = 0 ∧ State.reset.pc = 0x200 ∧ State.reset.sp = 0 ∧
  State.reset.dt = 0 ∧ State.reset.st = 0 ∧ (∀ y x, pixel State.reset.fb y x = false) ∧
  (∀ k : Key, State.reset.keys[k.val] = false) ∧ State.reset.kw = .idle ∧ State.reset.run = true ∧
  (∀ slot : Slot, State.reset.slots[slot.val] = none) ∧
  (∀ a, a % 4096 < 80 → State.reset.readByte a = defaultFont.toList.getD (a % 4096) 0) ∧
  (∀ a, 80 ≤ a % 4096 → State.reset.readByte a = 0) ∧
  powerOn defaultParams [] = .ok State.reset

/-- Power-on accepts a program of at most 0xE00 bytes, puts byte j at 0x200 + j, and leaves the rest of memory at its
power-on contents: the font at FONT_BASE and 0 elsewhere; a longer one is ProgramTooLarge (R320, R324; decision D21). -/
def Obligations.PowerOnLoadsProgram : Prop :=
  ∀ (p : Params) (bytes : List Byte), p.wf = true →
    (0xE00 < bytes.length → powerOn p bytes = .error .programTooLarge) ∧
    (bytes.length ≤ 0xE00 → ∃ s, powerOn p bytes = .ok s ∧ s.pc = 0x200 ∧ s.sp = 0 ∧
      (∀ j, ∀ h : j < bytes.length, s.readByte (0x200 + j) = bytes[j]) ∧
      (∀ j, ∀ h : j < 80, s.readByte (p.fontBase.toNat + j) = p.fontData[j]) ∧
      (∀ a, a < 4096 → (a < 0x200 ∨ 0x200 + bytes.length ≤ a) →
        (a < p.fontBase.toNat ∨ p.fontBase.toNat + 80 ≤ a) → s.readByte a = 0))

/-- `restart` reloads the original program, resets the registers, the display, the timers and the latch, and leaves the
keys, the rest of memory, the pause state and the slots (R322, decision D22). -/
def Obligations.RestartReloadsAndResets : Prop :=
  ∀ (s : State) (rest : List Event), s.inputs = .restart :: rest → programWf s.program = true →
    ∃ t, step s = .next t ∧
      (∀ r, t.reg r = 0) ∧ t.i = 0 ∧ t.pc = 0x200 ∧ t.stack = [] ∧ t.dt = 0 ∧ t.st = 0 ∧
      (∀ y x, pixel t.fb y x = false) ∧ t.kw = .idle ∧
      (∀ j, ∀ h : j < s.program.length, t.readByte (0x200 + j) = s.program[j]) ∧
      (∀ a, a < 4096 → (a < 0x200 ∨ 0x200 + s.program.length ≤ a) → t.readByte a = s.readByte a) ∧
      t.keys = s.keys ∧ t.run = s.run ∧ t.program = s.program ∧ t.slots = s.slots ∧ t.params = s.params ∧
      t.inputs = rest ∧ t.draws = s.draws

/-- The host's loading commands, rejected and accepted. A program that is too long and a slot never saved change nothing (R273,
R296, R324); that the event is consumed, the step goes on and `hostError` tells the error is log 31 (DESIGN CHOICE). An accepted
program is copied to 0x200 (R324); that it becomes the image `restart` reloads and that nothing else is reset is log 30 (DESIGN
CHOICE). -/
def Obligations.RejectedHostCommandsChangeNothing : Prop :=
  ∀ (s : State) (rest : List Event),
    (∀ bytes, 0xE00 < bytes.length → s.inputs = .loadProgram bytes :: rest →
      step s = .next (s.setInputs rest) ∧ hostError (.loadProgram bytes) s = some .programTooLarge) ∧
    (∀ slot : Slot, s.slots[slot.val] = none → s.inputs = .loadState slot :: rest →
      step s = .next (s.setInputs rest) ∧ hostError (.loadState slot) s = some .emptySlot) ∧
    (∀ bytes, bytes.length ≤ 0xE00 → s.inputs = .loadProgram bytes :: rest →
      hostError (.loadProgram bytes) s = none ∧
      ∃ t, step s = .next t ∧ t.program = bytes ∧
        (∀ j, ∀ h : j < bytes.length, t.readByte (0x200 + j) = bytes[j]) ∧
        Unchanged { bytes := maskedRange 0x200 bytes.length } ((s.setInputs rest).setProgram bytes) t)

/-- Saving, then any events that do not save to the same slot, then loading reproduces the saved machine exactly, and the
load leaves the pause state where the events left it (R295, R296; 95_test_vectors.md S7). -/
def Obligations.SaveThenLoadReproduces : Prop :=
  ∀ (s : State) (slot : Slot) (es : List Event) (t : State), Event.saveState slot ∉ es →
    runEvents (.saveState slot :: es) s = .next t →
      ∃ u, applyEvent (.loadState slot) t = .next u ∧ u.snapshot = s.snapshot ∧ u.run = t.run

/-- While Paused no automatic step executes, a single step executes exactly one and the machine stays Paused; while Running
a single step has no effect (R290, R291; that a step event while Paused is a no-op is log 12, that pause while Paused and resume
while Running only set the level again is log 36, DEDUCED). -/
def Obligations.PauseGatesSteps : Prop :=
  ∀ s : State,
    (s.run = false → applyEvent .step s = .next s ∧ applyEvent .singleStep s = executorStep s ∧
      ∀ t, executorStep s = .next t → t.run = false) ∧
    (s.run = true → applyEvent .singleStep s = .next s ∧ applyEvent .step s = executorStep s) ∧
    (∃ t, applyEvent .pause s = .next t ∧ t.run = false ∧ t.snapshot = s.snapshot) ∧
    (∃ t, applyEvent .resume s = .next t ∧ t.run = true ∧ t.snapshot = s.snapshot)

/-- The caller's policies after a fault, each parameter at both values. After InvalidOpcode halt ends the run and skip passes
over the illegal word and nothing else (R264, decisions D4 and D5); after a stack fault the host goes on from the state the
step left, paused exactly if it auto-pauses (R266, decision D26). That they are a function beside the step is log 9. -/
def Obligations.InvalidOpcodePolicies : Prop :=
  ∀ s : State, s.ready →
    (∀ e : Illegal, decodeWord s.fetch = .error e →
      (s.params.invalidOpcodePolicy = .halt → drive s = none) ∧
      (s.params.invalidOpcodePolicy = .skip → drive s = some (s.setPc (s.pc + 2)))) ∧
    (((∃ nnn, decodeWord s.fetch = .ok (.call nnn)) ∧ s.sp = 16 ∨ decodeWord s.fetch = .ok .ret ∧ s.sp = 0) →
      (s.params.autoPauseOnFault = true → drive s = some ((s.setPc (s.pc + 2)).setRun false)) ∧
      (s.params.autoPauseOnFault = false → drive s = some (s.setPc (s.pc + 2))))

/-- A word placed for the next fetch is executed by the very next step, and placing it changes the two bytes at PC and what the
fetch needs (no event queued, Running, no key wait), nothing else (log 29, the model's own operation). -/
def Obligations.PlacedWordRunsNext : Prop :=
  ∀ (s : State) (w : Nat) (i : Instr), decodeTableWord 16 w = some i →
    step (s.withFetchWord 16 w) = exec i ((s.withFetchWord 16 w).setPc (s.pc + 2)) ∧
    (s.withFetchWord 16 w).ready ∧ (s.withFetchWord 16 w).fetch.toNat = w % 65536 ∧
    ∃ m, s.withFetchWord 16 w = (((s.setMem m).setInputs []).setRun true).setKw .idle ∧
      ∀ a, maskAddr a ∉ maskedRange s.pc.toNat 2 → (s.withFetchWord 16 w).readByte a = s.readByte a
end

