-- ==== Sys2Proof/Laws/Decode.lean ====
section
/-! SUPPORT. The fields of a word put together from its parts (30_encoding.md R94, R95), the bytes of a word (R64, R91), and
the fields of a masked word (R97). -/

namespace Sys2Proof

theorem toFin_regBits (x : Reg) : (regBits x).toFin = x := rfl

/-- A 16-bit value is told by its four nibbles (R94). -/
theorem word_ext {v w : Word} (ho : opField v = opField w) (hx : xField v = xField w) (hy : yField v = yField w)
    (hn : nField v = nField w) : v = w := by
  have hx' : v.extractLsb' 8 4 = w.extractLsb' 8 4 := BitVec.toFin_inj.1 hx
  have hy' : v.extractLsb' 4 4 = w.extractLsb' 4 4 := BitVec.toFin_inj.1 hy
  have ho' := congrArg BitVec.toNat ho
  have hx'' := congrArg BitVec.toNat hx'
  have hy'' := congrArg BitVec.toNat hy'
  have hn' := congrArg BitVec.toNat hn
  simp only [opField, nField, BitVec.extractLsb'_toNat, Nat.shiftRight_eq_div_pow] at ho' hx'' hy'' hn'
  apply BitVec.eq_of_toNat_eq
  omega

/-! ## The fields as numbers -/

theorem opField_toNat (w : Word) : (opField w).toNat = w.toNat / 4096 % 16 := by
  simp [opField, BitVec.extractLsb'_toNat, Nat.shiftRight_eq_div_pow]

theorem xField_val (w : Word) : (xField w).val = w.toNat / 256 % 16 := by
  show (w.extractLsb' 8 4).toNat = _
  simp [BitVec.extractLsb'_toNat, Nat.shiftRight_eq_div_pow]

theorem yField_val (w : Word) : (yField w).val = w.toNat / 16 % 16 := by
  show (w.extractLsb' 4 4).toNat = _
  simp [BitVec.extractLsb'_toNat, Nat.shiftRight_eq_div_pow]

theorem nField_toNat (w : Word) : (nField w).toNat = w.toNat % 16 := by
  simp [nField, BitVec.extractLsb'_toNat]

theorem nnField_toNat (w : Word) : (nnField w).toNat = w.toNat % 256 := by
  simp [nnField, BitVec.extractLsb'_toNat]

theorem nnnField_toNat (w : Word) : (nnnField w).toNat = w.toNat % 4096 := by
  simp [nnnField, BitVec.extractLsb'_toNat]

/-! ## The three layouts as numbers -/

theorem append_toNat {m n : Nat} (a : BitVec m) (b : BitVec n) : (a ++ b).toNat = a.toNat * 2 ^ n + b.toNat := by
  rw [BitVec.toNat_append, Nat.shiftLeft_eq, Nat.mul_comm, Nat.two_pow_add_eq_or_of_lt b.isLt]

theorem formatA_toNat (op : Nibble) (nnn : Addr) : (formatA op nnn).toNat = op.toNat * 4096 + nnn.toNat :=
  append_toNat op nnn

theorem formatI_toNat (op : Nibble) (x : Reg) (nn : Byte) :
    (formatI op x nn).toNat = (op.toNat * 16 + x.val) * 256 + nn.toNat := by
  rw [show (formatI op x nn).toNat = _ from append_toNat (op ++ regBits x) nn, append_toNat]
  rfl

theorem formatR_toNat (op : Nibble) (x y : Reg) (n : Nibble) :
    (formatR op x y n).toNat = ((op.toNat * 16 + x.val) * 16 + y.val) * 16 + n.toNat := by
  rw [show (formatR op x y n).toNat = _ from append_toNat (op ++ regBits x ++ regBits y) n, append_toNat,
    append_toNat]
  rfl

/-! ## The fields of each layout -/

section fields
variable (op : Nibble) (nnn : Addr) (x y : Reg) (nn : Byte) (n : Nibble)

@[simp] theorem opField_formatA : opField (formatA op nnn) = op := by
  apply BitVec.eq_of_toNat_eq; rw [opField_toNat, formatA_toNat]; omega

@[simp] theorem nnnField_formatA : nnnField (formatA op nnn) = nnn := by
  apply BitVec.eq_of_toNat_eq; rw [nnnField_toNat, formatA_toNat]; omega

@[simp] theorem opField_formatI : opField (formatI op x nn) = op := by
  apply BitVec.eq_of_toNat_eq; rw [opField_toNat, formatI_toNat]; omega

@[simp] theorem xField_formatI : xField (formatI op x nn) = x := by
  apply Fin.ext; rw [xField_val, formatI_toNat]; omega

@[simp] theorem nnField_formatI : nnField (formatI op x nn) = nn := by
  apply BitVec.eq_of_toNat_eq; rw [nnField_toNat, formatI_toNat]; omega

@[simp] theorem opField_formatR : opField (formatR op x y n) = op := by
  apply BitVec.eq_of_toNat_eq; rw [opField_toNat, formatR_toNat]; omega

@[simp] theorem xField_formatR : xField (formatR op x y n) = x := by
  apply Fin.ext; rw [xField_val, formatR_toNat]; omega

@[simp] theorem yField_formatR : yField (formatR op x y n) = y := by
  apply Fin.ext; rw [yField_val, formatR_toNat]; omega

@[simp] theorem nField_formatR : nField (formatR op x y n) = n := by
  apply BitVec.eq_of_toNat_eq; rw [nField_toNat, formatR_toNat]; omega

end fields

/-- Every word is the three layouts of its own fields (R94). -/
theorem formatA_fields (w : Word) : formatA (opField w) (nnnField w) = w := by
  apply BitVec.eq_of_toNat_eq; rw [formatA_toNat, opField_toNat, nnnField_toNat]; omega

theorem formatI_fields (w : Word) : formatI (opField w) (xField w) (nnField w) = w := by
  apply BitVec.eq_of_toNat_eq; rw [formatI_toNat, opField_toNat, xField_val, nnField_toNat]; omega

theorem formatR_fields (w : Word) : formatR (opField w) (xField w) (yField w) (nField w) = w := by
  apply BitVec.eq_of_toNat_eq; rw [formatR_toNat, opField_toNat, xField_val, yField_val, nField_toNat]; omega

/-! ## Masks and fields (R97) -/

theorem opField_and (v w : Word) : opField (v &&& w) = opField v &&& opField w := by
  simp [opField, BitVec.extractLsb'_and]

theorem nField_and (v w : Word) : nField (v &&& w) = nField v &&& nField w := by
  simp [nField, BitVec.extractLsb'_and]

theorem nnField_and (v w : Word) : nnField (v &&& w) = nnField v &&& nnField w := by
  simp [nnField, BitVec.extractLsb'_and]

/-- Mask 0xF000 looks at the major opcode alone. -/
theorem and_F000_eq (w : Word) (op : Nibble) : w &&& 0xF000 = formatA op 0 ↔ opField w = op := by
  constructor
  · intro h
    have := congrArg opField h
    rw [opField_and, opField_formatA, show opField 0xF000 = BitVec.allOnes 4 by decide, BitVec.and_allOnes] at this
    exact this
  · rintro rfl
    have hw := formatA_fields w
    conv_lhs => rw [← hw]
    exact (BitVec.and_append (x₁ := opField w) (x₂ := BitVec.allOnes 4) (y₁ := nnnField w) (y₂ := 0#12)).trans (by
      rw [BitVec.and_allOnes, BitVec.and_zero]; rfl)

/-- Mask 0xF0FF looks at the major opcode and the low byte. -/
theorem and_F0FF_eq (w : Word) (op : Nibble) (nn : Byte) :
    w &&& 0xF0FF = formatI op 0 nn ↔ opField w = op ∧ nnField w = nn := by
  constructor
  · intro h
    have ho := congrArg opField h
    have hn := congrArg nnField h
    rw [opField_and, opField_formatI, show opField 0xF0FF = BitVec.allOnes 4 by decide, BitVec.and_allOnes] at ho
    rw [nnField_and, nnField_formatI, show nnField 0xF0FF = BitVec.allOnes 8 by decide, BitVec.and_allOnes] at hn
    exact ⟨ho, hn⟩
  · rintro ⟨rfl, rfl⟩
    have hw := formatI_fields w
    conv_lhs => rw [← hw]
    refine (BitVec.and_append (x₁ := opField w ++ regBits (xField w)) (x₂ := BitVec.allOnes 4 ++ 0#4)
      (y₁ := nnField w) (y₂ := BitVec.allOnes 8)).trans ?_
    rw [BitVec.and_append, BitVec.and_allOnes, BitVec.and_allOnes, BitVec.and_zero]
    rfl

/-- Mask 0xF00F looks at the major opcode and the low nibble. -/
theorem and_F00F_eq (w : Word) (op n : Nibble) :
    w &&& 0xF00F = formatR op 0 0 n ↔ opField w = op ∧ nField w = n := by
  constructor
  · intro h
    have ho := congrArg opField h
    have hn := congrArg nField h
    rw [opField_and, opField_formatR, show opField 0xF00F = BitVec.allOnes 4 by decide, BitVec.and_allOnes] at ho
    rw [nField_and, nField_formatR, show nField 0xF00F = BitVec.allOnes 4 by decide, BitVec.and_allOnes] at hn
    exact ⟨ho, hn⟩
  · rintro ⟨rfl, rfl⟩
    have hw := formatR_fields w
    conv_lhs => rw [← hw]
    refine (BitVec.and_append (x₁ := opField w ++ regBits (xField w) ++ regBits (yField w))
      (x₂ := BitVec.allOnes 4 ++ 0#4 ++ 0#4) (y₁ := nField w) (y₂ := BitVec.allOnes 4)).trans ?_
    rw [BitVec.and_append, BitVec.and_append, BitVec.and_allOnes, BitVec.and_allOnes, BitVec.and_zero, BitVec.and_zero]
    rfl

/-! ## The bytes of a word -/

/-- Taking a word apart and joining the bytes again (R64, R91). -/
theorem joinBytes_wordBytes (w : Word) : ∃ hi lo, wordBytes w = [hi, lo] ∧ joinBytes hi lo = w := by
  refine ⟨_, _, rfl, ?_⟩
  apply BitVec.eq_of_toNat_eq
  rw [joinBytes, append_toNat]
  simp only [BitVec.extractLsb'_toNat, Nat.shiftRight_eq_div_pow]
  omega

theorem joinBytes_toNat (hi lo : Byte) : (joinBytes hi lo).toNat = hi.toNat * 256 + lo.toNat := append_toNat hi lo

end Sys2Proof
end

