-- ==== Sys2Proof/Laws/Display.lean ====
section
/-! SUPPORT. What toggling one pixel does (46_draw.md R190, R193). -/

namespace Sys2Proof.Machine

/-- The pixels do not depend on how far a coordinate has wrapped (R190). -/
theorem pixel_congr (fb : FrameBuffer) {y y' x x' : Nat} (hy : y % 32 = y' % 32) (hx : x % 64 = x' % 64) :
    pixel fb y x = pixel fb y' x' := by
  simp only [pixel, hy, hx]

/-- A toggle changes the one pixel it names. -/
theorem pixel_flipPixel (fb : FrameBuffer) (y x y' x' : Nat) :
    pixel (flipPixel fb y x) y' x' =
      if y' % 32 = y % 32 ∧ x' % 64 = x % 64 then !pixel fb y' x' else pixel fb y' x' := by
  by_cases hy : y' % 32 = y % 32
  · by_cases hx : x' % 64 = x % 64
    · simp [pixel, flipPixel, hy, hx]
    · simp [pixel, flipPixel, hy, hx, Ne.symm hx]
  · simp [pixel, flipPixel, hy, Ne.symm hy]

/-- Two buffers with the same pixels are equal. -/
theorem fb_ext {f g : FrameBuffer} (h : ∀ y x, pixel f y x = pixel g y x) : f = g := by
  apply Vector.ext
  intro y hy
  apply Vector.ext
  intro x hx
  have := h y x
  simpa [pixel, Nat.mod_eq_of_lt hy, Nat.mod_eq_of_lt hx] using this

/-- Every pixel of the cleared buffer is dark (R191). -/
@[simp] theorem pixel_clearFb (y x : Nat) : pixel clearFb y x = false := by
  simp [pixel, clearFb]

/-- One 1 bit of a sprite: the pixel toggles, and meeting a lit pixel is a collision (R193). -/
theorem plot_spec (x y : Nat) (acc : FrameBuffer × Bool) :
    (plot x y acc).1 = flipPixel acc.1 y x ∧ ((plot x y acc).2 = true ↔ acc.2 = true ∨ pixel acc.1 y x = true) := by
  simp [plot]

end Sys2Proof.Machine
end

