-- ==== Sys2Proof/Laws/State.lean ====
section
/-! SUPPORT. One lemma per field per named update, so that no proof unfolds a record update, and the same for the accessors
`reg`, `readByte` and `key`. -/

namespace Sys2Proof.Machine

variable (s : State)

/-! ## setV -/

@[simp] theorem State.setV_v (a : Vector Byte 16) : (s.setV a).v = a := rfl
@[simp] theorem State.setV_i (a : Vector Byte 16) : (s.setV a).i = s.i := rfl
@[simp] theorem State.setV_pc (a : Vector Byte 16) : (s.setV a).pc = s.pc := rfl
@[simp] theorem State.setV_stack (a : Vector Byte 16) : (s.setV a).stack = s.stack := rfl
@[simp] theorem State.setV_dt (a : Vector Byte 16) : (s.setV a).dt = s.dt := rfl
@[simp] theorem State.setV_st (a : Vector Byte 16) : (s.setV a).st = s.st := rfl
@[simp] theorem State.setV_fb (a : Vector Byte 16) : (s.setV a).fb = s.fb := rfl
@[simp] theorem State.setV_keys (a : Vector Byte 16) : (s.setV a).keys = s.keys := rfl
@[simp] theorem State.setV_kw (a : Vector Byte 16) : (s.setV a).kw = s.kw := rfl
@[simp] theorem State.setV_mem (a : Vector Byte 16) : (s.setV a).mem = s.mem := rfl
@[simp] theorem State.setV_run (a : Vector Byte 16) : (s.setV a).run = s.run := rfl
@[simp] theorem State.setV_program (a : Vector Byte 16) : (s.setV a).program = s.program := rfl
@[simp] theorem State.setV_slots (a : Vector Byte 16) : (s.setV a).slots = s.slots := rfl
@[simp] theorem State.setV_params (a : Vector Byte 16) : (s.setV a).params = s.params := rfl
@[simp] theorem State.setV_inputs (a : Vector Byte 16) : (s.setV a).inputs = s.inputs := rfl
@[simp] theorem State.setV_draws (a : Vector Byte 16) : (s.setV a).draws = s.draws := rfl
@[simp] theorem State.setV_readByte (a : Vector Byte 16) (k : Nat) : (s.setV a).readByte k = s.readByte k := rfl
@[simp] theorem State.setV_key (a : Vector Byte 16) (k : Key) : (s.setV a).key k = s.key k := rfl

/-! ## setI -/

@[simp] theorem State.setI_v (a : Word) : (s.setI a).v = s.v := rfl
@[simp] theorem State.setI_i (a : Word) : (s.setI a).i = a := rfl
@[simp] theorem State.setI_pc (a : Word) : (s.setI a).pc = s.pc := rfl
@[simp] theorem State.setI_stack (a : Word) : (s.setI a).stack = s.stack := rfl
@[simp] theorem State.setI_dt (a : Word) : (s.setI a).dt = s.dt := rfl
@[simp] theorem State.setI_st (a : Word) : (s.setI a).st = s.st := rfl
@[simp] theorem State.setI_fb (a : Word) : (s.setI a).fb = s.fb := rfl
@[simp] theorem State.setI_keys (a : Word) : (s.setI a).keys = s.keys := rfl
@[simp] theorem State.setI_kw (a : Word) : (s.setI a).kw = s.kw := rfl
@[simp] theorem State.setI_mem (a : Word) : (s.setI a).mem = s.mem := rfl
@[simp] theorem State.setI_run (a : Word) : (s.setI a).run = s.run := rfl
@[simp] theorem State.setI_program (a : Word) : (s.setI a).program = s.program := rfl
@[simp] theorem State.setI_slots (a : Word) : (s.setI a).slots = s.slots := rfl
@[simp] theorem State.setI_params (a : Word) : (s.setI a).params = s.params := rfl
@[simp] theorem State.setI_inputs (a : Word) : (s.setI a).inputs = s.inputs := rfl
@[simp] theorem State.setI_draws (a : Word) : (s.setI a).draws = s.draws := rfl
@[simp] theorem State.setI_reg (a : Word) (r : Reg) : (s.setI a).reg r = s.reg r := rfl
@[simp] theorem State.setI_readByte (a : Word) (k : Nat) : (s.setI a).readByte k = s.readByte k := rfl
@[simp] theorem State.setI_key (a : Word) (k : Key) : (s.setI a).key k = s.key k := rfl

/-! ## setPc -/

@[simp] theorem State.setPc_v (a : Word) : (s.setPc a).v = s.v := rfl
@[simp] theorem State.setPc_i (a : Word) : (s.setPc a).i = s.i := rfl
@[simp] theorem State.setPc_pc (a : Word) : (s.setPc a).pc = a := rfl
@[simp] theorem State.setPc_stack (a : Word) : (s.setPc a).stack = s.stack := rfl
@[simp] theorem State.setPc_dt (a : Word) : (s.setPc a).dt = s.dt := rfl
@[simp] theorem State.setPc_st (a : Word) : (s.setPc a).st = s.st := rfl
@[simp] theorem State.setPc_fb (a : Word) : (s.setPc a).fb = s.fb := rfl
@[simp] theorem State.setPc_keys (a : Word) : (s.setPc a).keys = s.keys := rfl
@[simp] theorem State.setPc_kw (a : Word) : (s.setPc a).kw = s.kw := rfl
@[simp] theorem State.setPc_mem (a : Word) : (s.setPc a).mem = s.mem := rfl
@[simp] theorem State.setPc_run (a : Word) : (s.setPc a).run = s.run := rfl
@[simp] theorem State.setPc_program (a : Word) : (s.setPc a).program = s.program := rfl
@[simp] theorem State.setPc_slots (a : Word) : (s.setPc a).slots = s.slots := rfl
@[simp] theorem State.setPc_params (a : Word) : (s.setPc a).params = s.params := rfl
@[simp] theorem State.setPc_inputs (a : Word) : (s.setPc a).inputs = s.inputs := rfl
@[simp] theorem State.setPc_draws (a : Word) : (s.setPc a).draws = s.draws := rfl
@[simp] theorem State.setPc_reg (a : Word) (r : Reg) : (s.setPc a).reg r = s.reg r := rfl
@[simp] theorem State.setPc_readByte (a : Word) (k : Nat) : (s.setPc a).readByte k = s.readByte k := rfl
@[simp] theorem State.setPc_key (a : Word) (k : Key) : (s.setPc a).key k = s.key k := rfl

/-! ## setStack -/

@[simp] theorem State.setStack_v (a : List Word) : (s.setStack a).v = s.v := rfl
@[simp] theorem State.setStack_i (a : List Word) : (s.setStack a).i = s.i := rfl
@[simp] theorem State.setStack_pc (a : List Word) : (s.setStack a).pc = s.pc := rfl
@[simp] theorem State.setStack_stack (a : List Word) : (s.setStack a).stack = a := rfl
@[simp] theorem State.setStack_dt (a : List Word) : (s.setStack a).dt = s.dt := rfl
@[simp] theorem State.setStack_st (a : List Word) : (s.setStack a).st = s.st := rfl
@[simp] theorem State.setStack_fb (a : List Word) : (s.setStack a).fb = s.fb := rfl
@[simp] theorem State.setStack_keys (a : List Word) : (s.setStack a).keys = s.keys := rfl
@[simp] theorem State.setStack_kw (a : List Word) : (s.setStack a).kw = s.kw := rfl
@[simp] theorem State.setStack_mem (a : List Word) : (s.setStack a).mem = s.mem := rfl
@[simp] theorem State.setStack_run (a : List Word) : (s.setStack a).run = s.run := rfl
@[simp] theorem State.setStack_program (a : List Word) : (s.setStack a).program = s.program := rfl
@[simp] theorem State.setStack_slots (a : List Word) : (s.setStack a).slots = s.slots := rfl
@[simp] theorem State.setStack_params (a : List Word) : (s.setStack a).params = s.params := rfl
@[simp] theorem State.setStack_inputs (a : List Word) : (s.setStack a).inputs = s.inputs := rfl
@[simp] theorem State.setStack_draws (a : List Word) : (s.setStack a).draws = s.draws := rfl
@[simp] theorem State.setStack_reg (a : List Word) (r : Reg) : (s.setStack a).reg r = s.reg r := rfl
@[simp] theorem State.setStack_readByte (a : List Word) (k : Nat) : (s.setStack a).readByte k = s.readByte k := rfl
@[simp] theorem State.setStack_key (a : List Word) (k : Key) : (s.setStack a).key k = s.key k := rfl

/-! ## setDt -/

@[simp] theorem State.setDt_v (a : Byte) : (s.setDt a).v = s.v := rfl
@[simp] theorem State.setDt_i (a : Byte) : (s.setDt a).i = s.i := rfl
@[simp] theorem State.setDt_pc (a : Byte) : (s.setDt a).pc = s.pc := rfl
@[simp] theorem State.setDt_stack (a : Byte) : (s.setDt a).stack = s.stack := rfl
@[simp] theorem State.setDt_dt (a : Byte) : (s.setDt a).dt = a := rfl
@[simp] theorem State.setDt_st (a : Byte) : (s.setDt a).st = s.st := rfl
@[simp] theorem State.setDt_fb (a : Byte) : (s.setDt a).fb = s.fb := rfl
@[simp] theorem State.setDt_keys (a : Byte) : (s.setDt a).keys = s.keys := rfl
@[simp] theorem State.setDt_kw (a : Byte) : (s.setDt a).kw = s.kw := rfl
@[simp] theorem State.setDt_mem (a : Byte) : (s.setDt a).mem = s.mem := rfl
@[simp] theorem State.setDt_run (a : Byte) : (s.setDt a).run = s.run := rfl
@[simp] theorem State.setDt_program (a : Byte) : (s.setDt a).program = s.program := rfl
@[simp] theorem State.setDt_slots (a : Byte) : (s.setDt a).slots = s.slots := rfl
@[simp] theorem State.setDt_params (a : Byte) : (s.setDt a).params = s.params := rfl
@[simp] theorem State.setDt_inputs (a : Byte) : (s.setDt a).inputs = s.inputs := rfl
@[simp] theorem State.setDt_draws (a : Byte) : (s.setDt a).draws = s.draws := rfl
@[simp] theorem State.setDt_reg (a : Byte) (r : Reg) : (s.setDt a).reg r = s.reg r := rfl
@[simp] theorem State.setDt_readByte (a : Byte) (k : Nat) : (s.setDt a).readByte k = s.readByte k := rfl
@[simp] theorem State.setDt_key (a : Byte) (k : Key) : (s.setDt a).key k = s.key k := rfl

/-! ## setSt -/

@[simp] theorem State.setSt_v (a : Byte) : (s.setSt a).v = s.v := rfl
@[simp] theorem State.setSt_i (a : Byte) : (s.setSt a).i = s.i := rfl
@[simp] theorem State.setSt_pc (a : Byte) : (s.setSt a).pc = s.pc := rfl
@[simp] theorem State.setSt_stack (a : Byte) : (s.setSt a).stack = s.stack := rfl
@[simp] theorem State.setSt_dt (a : Byte) : (s.setSt a).dt = s.dt := rfl
@[simp] theorem State.setSt_st (a : Byte) : (s.setSt a).st = a := rfl
@[simp] theorem State.setSt_fb (a : Byte) : (s.setSt a).fb = s.fb := rfl
@[simp] theorem State.setSt_keys (a : Byte) : (s.setSt a).keys = s.keys := rfl
@[simp] theorem State.setSt_kw (a : Byte) : (s.setSt a).kw = s.kw := rfl
@[simp] theorem State.setSt_mem (a : Byte) : (s.setSt a).mem = s.mem := rfl
@[simp] theorem State.setSt_run (a : Byte) : (s.setSt a).run = s.run := rfl
@[simp] theorem State.setSt_program (a : Byte) : (s.setSt a).program = s.program := rfl
@[simp] theorem State.setSt_slots (a : Byte) : (s.setSt a).slots = s.slots := rfl
@[simp] theorem State.setSt_params (a : Byte) : (s.setSt a).params = s.params := rfl
@[simp] theorem State.setSt_inputs (a : Byte) : (s.setSt a).inputs = s.inputs := rfl
@[simp] theorem State.setSt_draws (a : Byte) : (s.setSt a).draws = s.draws := rfl
@[simp] theorem State.setSt_reg (a : Byte) (r : Reg) : (s.setSt a).reg r = s.reg r := rfl
@[simp] theorem State.setSt_readByte (a : Byte) (k : Nat) : (s.setSt a).readByte k = s.readByte k := rfl
@[simp] theorem State.setSt_key (a : Byte) (k : Key) : (s.setSt a).key k = s.key k := rfl

/-! ## setFb -/

@[simp] theorem State.setFb_v (a : FrameBuffer) : (s.setFb a).v = s.v := rfl
@[simp] theorem State.setFb_i (a : FrameBuffer) : (s.setFb a).i = s.i := rfl
@[simp] theorem State.setFb_pc (a : FrameBuffer) : (s.setFb a).pc = s.pc := rfl
@[simp] theorem State.setFb_stack (a : FrameBuffer) : (s.setFb a).stack = s.stack := rfl
@[simp] theorem State.setFb_dt (a : FrameBuffer) : (s.setFb a).dt = s.dt := rfl
@[simp] theorem State.setFb_st (a : FrameBuffer) : (s.setFb a).st = s.st := rfl
@[simp] theorem State.setFb_fb (a : FrameBuffer) : (s.setFb a).fb = a := rfl
@[simp] theorem State.setFb_keys (a : FrameBuffer) : (s.setFb a).keys = s.keys := rfl
@[simp] theorem State.setFb_kw (a : FrameBuffer) : (s.setFb a).kw = s.kw := rfl
@[simp] theorem State.setFb_mem (a : FrameBuffer) : (s.setFb a).mem = s.mem := rfl
@[simp] theorem State.setFb_run (a : FrameBuffer) : (s.setFb a).run = s.run := rfl
@[simp] theorem State.setFb_program (a : FrameBuffer) : (s.setFb a).program = s.program := rfl
@[simp] theorem State.setFb_slots (a : FrameBuffer) : (s.setFb a).slots = s.slots := rfl
@[simp] theorem State.setFb_params (a : FrameBuffer) : (s.setFb a).params = s.params := rfl
@[simp] theorem State.setFb_inputs (a : FrameBuffer) : (s.setFb a).inputs = s.inputs := rfl
@[simp] theorem State.setFb_draws (a : FrameBuffer) : (s.setFb a).draws = s.draws := rfl
@[simp] theorem State.setFb_reg (a : FrameBuffer) (r : Reg) : (s.setFb a).reg r = s.reg r := rfl
@[simp] theorem State.setFb_readByte (a : FrameBuffer) (k : Nat) : (s.setFb a).readByte k = s.readByte k := rfl
@[simp] theorem State.setFb_key (a : FrameBuffer) (k : Key) : (s.setFb a).key k = s.key k := rfl

/-! ## setKeys -/

@[simp] theorem State.setKeys_v (a : Vector Bool 16) : (s.setKeys a).v = s.v := rfl
@[simp] theorem State.setKeys_i (a : Vector Bool 16) : (s.setKeys a).i = s.i := rfl
@[simp] theorem State.setKeys_pc (a : Vector Bool 16) : (s.setKeys a).pc = s.pc := rfl
@[simp] theorem State.setKeys_stack (a : Vector Bool 16) : (s.setKeys a).stack = s.stack := rfl
@[simp] theorem State.setKeys_dt (a : Vector Bool 16) : (s.setKeys a).dt = s.dt := rfl
@[simp] theorem State.setKeys_st (a : Vector Bool 16) : (s.setKeys a).st = s.st := rfl
@[simp] theorem State.setKeys_fb (a : Vector Bool 16) : (s.setKeys a).fb = s.fb := rfl
@[simp] theorem State.setKeys_keys (a : Vector Bool 16) : (s.setKeys a).keys = a := rfl
@[simp] theorem State.setKeys_kw (a : Vector Bool 16) : (s.setKeys a).kw = s.kw := rfl
@[simp] theorem State.setKeys_mem (a : Vector Bool 16) : (s.setKeys a).mem = s.mem := rfl
@[simp] theorem State.setKeys_run (a : Vector Bool 16) : (s.setKeys a).run = s.run := rfl
@[simp] theorem State.setKeys_program (a : Vector Bool 16) : (s.setKeys a).program = s.program := rfl
@[simp] theorem State.setKeys_slots (a : Vector Bool 16) : (s.setKeys a).slots = s.slots := rfl
@[simp] theorem State.setKeys_params (a : Vector Bool 16) : (s.setKeys a).params = s.params := rfl
@[simp] theorem State.setKeys_inputs (a : Vector Bool 16) : (s.setKeys a).inputs = s.inputs := rfl
@[simp] theorem State.setKeys_draws (a : Vector Bool 16) : (s.setKeys a).draws = s.draws := rfl
@[simp] theorem State.setKeys_reg (a : Vector Bool 16) (r : Reg) : (s.setKeys a).reg r = s.reg r := rfl
@[simp] theorem State.setKeys_readByte (a : Vector Bool 16) (k : Nat) : (s.setKeys a).readByte k = s.readByte k := rfl

/-! ## setKw -/

@[simp] theorem State.setKw_v (a : KeyWait) : (s.setKw a).v = s.v := rfl
@[simp] theorem State.setKw_i (a : KeyWait) : (s.setKw a).i = s.i := rfl
@[simp] theorem State.setKw_pc (a : KeyWait) : (s.setKw a).pc = s.pc := rfl
@[simp] theorem State.setKw_stack (a : KeyWait) : (s.setKw a).stack = s.stack := rfl
@[simp] theorem State.setKw_dt (a : KeyWait) : (s.setKw a).dt = s.dt := rfl
@[simp] theorem State.setKw_st (a : KeyWait) : (s.setKw a).st = s.st := rfl
@[simp] theorem State.setKw_fb (a : KeyWait) : (s.setKw a).fb = s.fb := rfl
@[simp] theorem State.setKw_keys (a : KeyWait) : (s.setKw a).keys = s.keys := rfl
@[simp] theorem State.setKw_kw (a : KeyWait) : (s.setKw a).kw = a := rfl
@[simp] theorem State.setKw_mem (a : KeyWait) : (s.setKw a).mem = s.mem := rfl
@[simp] theorem State.setKw_run (a : KeyWait) : (s.setKw a).run = s.run := rfl
@[simp] theorem State.setKw_program (a : KeyWait) : (s.setKw a).program = s.program := rfl
@[simp] theorem State.setKw_slots (a : KeyWait) : (s.setKw a).slots = s.slots := rfl
@[simp] theorem State.setKw_params (a : KeyWait) : (s.setKw a).params = s.params := rfl
@[simp] theorem State.setKw_inputs (a : KeyWait) : (s.setKw a).inputs = s.inputs := rfl
@[simp] theorem State.setKw_draws (a : KeyWait) : (s.setKw a).draws = s.draws := rfl
@[simp] theorem State.setKw_reg (a : KeyWait) (r : Reg) : (s.setKw a).reg r = s.reg r := rfl
@[simp] theorem State.setKw_readByte (a : KeyWait) (k : Nat) : (s.setKw a).readByte k = s.readByte k := rfl
@[simp] theorem State.setKw_key (a : KeyWait) (k : Key) : (s.setKw a).key k = s.key k := rfl

/-! ## setMem -/

@[simp] theorem State.setMem_v (a : Memory) : (s.setMem a).v = s.v := rfl
@[simp] theorem State.setMem_i (a : Memory) : (s.setMem a).i = s.i := rfl
@[simp] theorem State.setMem_pc (a : Memory) : (s.setMem a).pc = s.pc := rfl
@[simp] theorem State.setMem_stack (a : Memory) : (s.setMem a).stack = s.stack := rfl
@[simp] theorem State.setMem_dt (a : Memory) : (s.setMem a).dt = s.dt := rfl
@[simp] theorem State.setMem_st (a : Memory) : (s.setMem a).st = s.st := rfl
@[simp] theorem State.setMem_fb (a : Memory) : (s.setMem a).fb = s.fb := rfl
@[simp] theorem State.setMem_keys (a : Memory) : (s.setMem a).keys = s.keys := rfl
@[simp] theorem State.setMem_kw (a : Memory) : (s.setMem a).kw = s.kw := rfl
@[simp] theorem State.setMem_mem (a : Memory) : (s.setMem a).mem = a := rfl
@[simp] theorem State.setMem_run (a : Memory) : (s.setMem a).run = s.run := rfl
@[simp] theorem State.setMem_program (a : Memory) : (s.setMem a).program = s.program := rfl
@[simp] theorem State.setMem_slots (a : Memory) : (s.setMem a).slots = s.slots := rfl
@[simp] theorem State.setMem_params (a : Memory) : (s.setMem a).params = s.params := rfl
@[simp] theorem State.setMem_inputs (a : Memory) : (s.setMem a).inputs = s.inputs := rfl
@[simp] theorem State.setMem_draws (a : Memory) : (s.setMem a).draws = s.draws := rfl
@[simp] theorem State.setMem_reg (a : Memory) (r : Reg) : (s.setMem a).reg r = s.reg r := rfl
@[simp] theorem State.setMem_key (a : Memory) (k : Key) : (s.setMem a).key k = s.key k := rfl

/-! ## setRun -/

@[simp] theorem State.setRun_v (a : Bool) : (s.setRun a).v = s.v := rfl
@[simp] theorem State.setRun_i (a : Bool) : (s.setRun a).i = s.i := rfl
@[simp] theorem State.setRun_pc (a : Bool) : (s.setRun a).pc = s.pc := rfl
@[simp] theorem State.setRun_stack (a : Bool) : (s.setRun a).stack = s.stack := rfl
@[simp] theorem State.setRun_dt (a : Bool) : (s.setRun a).dt = s.dt := rfl
@[simp] theorem State.setRun_st (a : Bool) : (s.setRun a).st = s.st := rfl
@[simp] theorem State.setRun_fb (a : Bool) : (s.setRun a).fb = s.fb := rfl
@[simp] theorem State.setRun_keys (a : Bool) : (s.setRun a).keys = s.keys := rfl
@[simp] theorem State.setRun_kw (a : Bool) : (s.setRun a).kw = s.kw := rfl
@[simp] theorem State.setRun_mem (a : Bool) : (s.setRun a).mem = s.mem := rfl
@[simp] theorem State.setRun_run (a : Bool) : (s.setRun a).run = a := rfl
@[simp] theorem State.setRun_program (a : Bool) : (s.setRun a).program = s.program := rfl
@[simp] theorem State.setRun_slots (a : Bool) : (s.setRun a).slots = s.slots := rfl
@[simp] theorem State.setRun_params (a : Bool) : (s.setRun a).params = s.params := rfl
@[simp] theorem State.setRun_inputs (a : Bool) : (s.setRun a).inputs = s.inputs := rfl
@[simp] theorem State.setRun_draws (a : Bool) : (s.setRun a).draws = s.draws := rfl
@[simp] theorem State.setRun_reg (a : Bool) (r : Reg) : (s.setRun a).reg r = s.reg r := rfl
@[simp] theorem State.setRun_readByte (a : Bool) (k : Nat) : (s.setRun a).readByte k = s.readByte k := rfl
@[simp] theorem State.setRun_key (a : Bool) (k : Key) : (s.setRun a).key k = s.key k := rfl

/-! ## setProgram -/

@[simp] theorem State.setProgram_v (a : List Byte) : (s.setProgram a).v = s.v := rfl
@[simp] theorem State.setProgram_i (a : List Byte) : (s.setProgram a).i = s.i := rfl
@[simp] theorem State.setProgram_pc (a : List Byte) : (s.setProgram a).pc = s.pc := rfl
@[simp] theorem State.setProgram_stack (a : List Byte) : (s.setProgram a).stack = s.stack := rfl
@[simp] theorem State.setProgram_dt (a : List Byte) : (s.setProgram a).dt = s.dt := rfl
@[simp] theorem State.setProgram_st (a : List Byte) : (s.setProgram a).st = s.st := rfl
@[simp] theorem State.setProgram_fb (a : List Byte) : (s.setProgram a).fb = s.fb := rfl
@[simp] theorem State.setProgram_keys (a : List Byte) : (s.setProgram a).keys = s.keys := rfl
@[simp] theorem State.setProgram_kw (a : List Byte) : (s.setProgram a).kw = s.kw := rfl
@[simp] theorem State.setProgram_mem (a : List Byte) : (s.setProgram a).mem = s.mem := rfl
@[simp] theorem State.setProgram_run (a : List Byte) : (s.setProgram a).run = s.run := rfl
@[simp] theorem State.setProgram_program (a : List Byte) : (s.setProgram a).program = a := rfl
@[simp] theorem State.setProgram_slots (a : List Byte) : (s.setProgram a).slots = s.slots := rfl
@[simp] theorem State.setProgram_params (a : List Byte) : (s.setProgram a).params = s.params := rfl
@[simp] theorem State.setProgram_inputs (a : List Byte) : (s.setProgram a).inputs = s.inputs := rfl
@[simp] theorem State.setProgram_draws (a : List Byte) : (s.setProgram a).draws = s.draws := rfl
@[simp] theorem State.setProgram_reg (a : List Byte) (r : Reg) : (s.setProgram a).reg r = s.reg r := rfl
@[simp] theorem State.setProgram_readByte (a : List Byte) (k : Nat) : (s.setProgram a).readByte k = s.readByte k := rfl
@[simp] theorem State.setProgram_key (a : List Byte) (k : Key) : (s.setProgram a).key k = s.key k := rfl

/-! ## setSlots -/

@[simp] theorem State.setSlots_v (a : Vector (Option Snapshot) 10) : (s.setSlots a).v = s.v := rfl
@[simp] theorem State.setSlots_i (a : Vector (Option Snapshot) 10) : (s.setSlots a).i = s.i := rfl
@[simp] theorem State.setSlots_pc (a : Vector (Option Snapshot) 10) : (s.setSlots a).pc = s.pc := rfl
@[simp] theorem State.setSlots_stack (a : Vector (Option Snapshot) 10) : (s.setSlots a).stack = s.stack := rfl
@[simp] theorem State.setSlots_dt (a : Vector (Option Snapshot) 10) : (s.setSlots a).dt = s.dt := rfl
@[simp] theorem State.setSlots_st (a : Vector (Option Snapshot) 10) : (s.setSlots a).st = s.st := rfl
@[simp] theorem State.setSlots_fb (a : Vector (Option Snapshot) 10) : (s.setSlots a).fb = s.fb := rfl
@[simp] theorem State.setSlots_keys (a : Vector (Option Snapshot) 10) : (s.setSlots a).keys = s.keys := rfl
@[simp] theorem State.setSlots_kw (a : Vector (Option Snapshot) 10) : (s.setSlots a).kw = s.kw := rfl
@[simp] theorem State.setSlots_mem (a : Vector (Option Snapshot) 10) : (s.setSlots a).mem = s.mem := rfl
@[simp] theorem State.setSlots_run (a : Vector (Option Snapshot) 10) : (s.setSlots a).run = s.run := rfl
@[simp] theorem State.setSlots_program (a : Vector (Option Snapshot) 10) : (s.setSlots a).program = s.program := rfl
@[simp] theorem State.setSlots_slots (a : Vector (Option Snapshot) 10) : (s.setSlots a).slots = a := rfl
@[simp] theorem State.setSlots_params (a : Vector (Option Snapshot) 10) : (s.setSlots a).params = s.params := rfl
@[simp] theorem State.setSlots_inputs (a : Vector (Option Snapshot) 10) : (s.setSlots a).inputs = s.inputs := rfl
@[simp] theorem State.setSlots_draws (a : Vector (Option Snapshot) 10) : (s.setSlots a).draws = s.draws := rfl
@[simp] theorem State.setSlots_reg (a : Vector (Option Snapshot) 10) (r : Reg) : (s.setSlots a).reg r = s.reg r := rfl
@[simp] theorem State.setSlots_readByte (a : Vector (Option Snapshot) 10) (k : Nat) : (s.setSlots a).readByte k = s.readByte k := rfl
@[simp] theorem State.setSlots_key (a : Vector (Option Snapshot) 10) (k : Key) : (s.setSlots a).key k = s.key k := rfl

/-! ## setInputs -/

@[simp] theorem State.setInputs_v (a : List Event) : (s.setInputs a).v = s.v := rfl
@[simp] theorem State.setInputs_i (a : List Event) : (s.setInputs a).i = s.i := rfl
@[simp] theorem State.setInputs_pc (a : List Event) : (s.setInputs a).pc = s.pc := rfl
@[simp] theorem State.setInputs_stack (a : List Event) : (s.setInputs a).stack = s.stack := rfl
@[simp] theorem State.setInputs_dt (a : List Event) : (s.setInputs a).dt = s.dt := rfl
@[simp] theorem State.setInputs_st (a : List Event) : (s.setInputs a).st = s.st := rfl
@[simp] theorem State.setInputs_fb (a : List Event) : (s.setInputs a).fb = s.fb := rfl
@[simp] theorem State.setInputs_keys (a : List Event) : (s.setInputs a).keys = s.keys := rfl
@[simp] theorem State.setInputs_kw (a : List Event) : (s.setInputs a).kw = s.kw := rfl
@[simp] theorem State.setInputs_mem (a : List Event) : (s.setInputs a).mem = s.mem := rfl
@[simp] theorem State.setInputs_run (a : List Event) : (s.setInputs a).run = s.run := rfl
@[simp] theorem State.setInputs_program (a : List Event) : (s.setInputs a).program = s.program := rfl
@[simp] theorem State.setInputs_slots (a : List Event) : (s.setInputs a).slots = s.slots := rfl
@[simp] theorem State.setInputs_params (a : List Event) : (s.setInputs a).params = s.params := rfl
@[simp] theorem State.setInputs_inputs (a : List Event) : (s.setInputs a).inputs = a := rfl
@[simp] theorem State.setInputs_draws (a : List Event) : (s.setInputs a).draws = s.draws := rfl
@[simp] theorem State.setInputs_reg (a : List Event) (r : Reg) : (s.setInputs a).reg r = s.reg r := rfl
@[simp] theorem State.setInputs_readByte (a : List Event) (k : Nat) : (s.setInputs a).readByte k = s.readByte k := rfl
@[simp] theorem State.setInputs_key (a : List Event) (k : Key) : (s.setInputs a).key k = s.key k := rfl

/-! ## setDraws -/

@[simp] theorem State.setDraws_v (a : Nat) : (s.setDraws a).v = s.v := rfl
@[simp] theorem State.setDraws_i (a : Nat) : (s.setDraws a).i = s.i := rfl
@[simp] theorem State.setDraws_pc (a : Nat) : (s.setDraws a).pc = s.pc := rfl
@[simp] theorem State.setDraws_stack (a : Nat) : (s.setDraws a).stack = s.stack := rfl
@[simp] theorem State.setDraws_dt (a : Nat) : (s.setDraws a).dt = s.dt := rfl
@[simp] theorem State.setDraws_st (a : Nat) : (s.setDraws a).st = s.st := rfl
@[simp] theorem State.setDraws_fb (a : Nat) : (s.setDraws a).fb = s.fb := rfl
@[simp] theorem State.setDraws_keys (a : Nat) : (s.setDraws a).keys = s.keys := rfl
@[simp] theorem State.setDraws_kw (a : Nat) : (s.setDraws a).kw = s.kw := rfl
@[simp] theorem State.setDraws_mem (a : Nat) : (s.setDraws a).mem = s.mem := rfl
@[simp] theorem State.setDraws_run (a : Nat) : (s.setDraws a).run = s.run := rfl
@[simp] theorem State.setDraws_program (a : Nat) : (s.setDraws a).program = s.program := rfl
@[simp] theorem State.setDraws_slots (a : Nat) : (s.setDraws a).slots = s.slots := rfl
@[simp] theorem State.setDraws_params (a : Nat) : (s.setDraws a).params = s.params := rfl
@[simp] theorem State.setDraws_inputs (a : Nat) : (s.setDraws a).inputs = s.inputs := rfl
@[simp] theorem State.setDraws_draws (a : Nat) : (s.setDraws a).draws = a := rfl
@[simp] theorem State.setDraws_reg (a : Nat) (r : Reg) : (s.setDraws a).reg r = s.reg r := rfl
@[simp] theorem State.setDraws_readByte (a : Nat) (k : Nat) : (s.setDraws a).readByte k = s.readByte k := rfl
@[simp] theorem State.setDraws_key (a : Nat) (k : Key) : (s.setDraws a).key k = s.key k := rfl

end Sys2Proof.Machine
end

