-- ==== Sys2Proof/Laws/Memory.lean ====
section
/-! SUPPORT. What reading and writing memory does (20_memory.md R61 to R64, R67), and that every write keeps the canonical
form. Nothing here needs the form to hold: the read-and-write laws are true of every list. -/

namespace Sys2Proof.Machine

/-! ## The list of cells -/

theorem memRead_memInsert (p : Params) (m : Memory) (a k : Nat) (b : Byte) :
    memRead p (memInsert a b m) k = if k = a then b else memRead p m k := by
  induction m with
  | nil => simp [memInsert, memRead, eq_comm]
  | cons c m ih =>
    obtain ⟨l, d⟩ := c
    simp only [memInsert]
    split
    · simp [memRead, eq_comm]
    · split
      · subst_vars
        by_cases h : k = l <;> simp [memRead, h, eq_comm]
      · simp only [memRead, ih]
        by_cases h : k = a <;> by_cases h' : l = k <;> simp [h, h'] <;> omega

theorem memRead_memErase (p : Params) (m : Memory) (a k : Nat) :
    memRead p (memErase a m) k = if k = a then unlisted p a else memRead p m k := by
  induction m with
  | nil => simp only [memErase, List.filter_nil, memRead]; split <;> simp_all
  | cons c m ih =>
    obtain ⟨l, d⟩ := c
    simp only [memErase, List.filter_cons] at ih ⊢
    by_cases hl : l = a
    · subst hl
      by_cases h : k = l <;> simp_all [memRead, eq_comm]
    · by_cases h : l = k <;> simp_all [memRead]

/-- A read after a write: the byte written at its address, every other address as before. -/
theorem memRead_memWrite (p : Params) (m : Memory) (a k : Nat) (b : Byte) :
    memRead p (memWrite p m a b) k = if k = a then b else memRead p m k := by
  unfold memWrite
  split
  · rename_i h; rw [memRead_memErase, h]
  · exact memRead_memInsert p m a k b

/-- An address that no entry holds reads as it did at power-on. -/
theorem memRead_of_not_listed (p : Params) (m : Memory) (a : Nat) (h : ∀ c ∈ m, c.1 ≠ a) : memRead p m a = unlisted p a := by
  induction m with
  | nil => rfl
  | cons c m ih => rw [memRead, if_neg (h c List.mem_cons_self), ih fun d hd => h d (List.mem_cons_of_mem _ hd)]

/-! ## The canonical form -/

theorem memRising_cons (c : Host.Cell) (m : Memory) :
    memRising (c :: m) = true ↔ (∀ d ∈ m, c.1 < d.1) ∧ memRising m = true := by
  induction m generalizing c with
  | nil => simp [memRising]
  | cons d m ih =>
    simp only [memRising, Bool.and_eq_true, decide_eq_true_eq, List.mem_cons]
    constructor
    · rintro ⟨hcd, hdm⟩
      have hd := (ih d).1 hdm
      refine ⟨?_, hdm⟩
      rintro e (rfl | he)
      · exact hcd
      · exact lt_trans hcd (hd.1 e he)
    · rintro ⟨h, hdm⟩
      exact ⟨h d (Or.inl rfl), hdm⟩

theorem Memory.wf_iff (p : Params) (m : Memory) :
    m.wf p = true ↔ memRising m = true ∧ ∀ c ∈ m, c.1 < 0x1000 ∧ c.2 ≠ unlisted p c.1 := by
  simp [Memory.wf]

theorem mem_memInsert {a : Nat} {b : Byte} {m : Memory} {c : Host.Cell} (h : c ∈ memInsert a b m) :
    c = (a, b) ∨ c ∈ m := by
  induction m with
  | nil => simpa [memInsert] using h
  | cons d m ih =>
    simp only [memInsert] at h
    split at h
    · simpa using h
    · split at h
      · rcases List.mem_cons.1 h with h | h
        · exact Or.inl h
        · exact Or.inr (List.mem_cons_of_mem _ h)
      · rcases List.mem_cons.1 h with h | h
        · exact Or.inr (by simp [h])
        · rcases ih h with h | h
          · exact Or.inl h
          · exact Or.inr (List.mem_cons_of_mem _ h)

theorem memRising_memInsert (a : Nat) (b : Byte) (m : Memory) (h : memRising m = true) :
    memRising (memInsert a b m) = true := by
  induction m with
  | nil => rfl
  | cons d m ih =>
    have hd := (memRising_cons d m).1 h
    simp only [memInsert]
    split
    · rename_i hlt
      refine (memRising_cons _ _).2 ⟨?_, h⟩
      rintro e he
      rcases List.mem_cons.1 he with rfl | he
      · exact hlt
      · exact lt_trans hlt (hd.1 e he)
    · split
      · rename_i heq
        exact (memRising_cons _ _).2 ⟨fun e he => by simpa [heq] using hd.1 e he, hd.2⟩
      · rename_i hlt hne
        refine (memRising_cons _ _).2 ⟨?_, ih hd.2⟩
        rintro e he
        rcases mem_memInsert he with rfl | he
        · show d.1 < a
          omega
        · exact hd.1 e he

theorem memRising_memErase (a : Nat) (m : Memory) (h : memRising m = true) :
    memRising (memErase a m) = true := by
  induction m with
  | nil => rfl
  | cons d m ih =>
    have hd := (memRising_cons d m).1 h
    by_cases hda : d.1 = a
    · simpa [memErase, List.filter_cons, hda] using ih hd.2
    · have : memErase a (d :: m) = d :: memErase a m := by simp [memErase, hda]
      rw [this]
      exact (memRising_cons _ _).2 ⟨fun e he => hd.1 e (List.mem_of_mem_filter he), ih hd.2⟩

/-- A write keeps the canonical form. -/
theorem Memory.wf_memWrite {p : Params} {m : Memory} {a : Nat} (b : Byte) (ha : a < 0x1000)
    (h : m.wf p = true) : (memWrite p m a b).wf p = true := by
  rw [Memory.wf_iff] at h ⊢
  unfold memWrite
  split
  · exact ⟨memRising_memErase a m h.1, fun c hc => h.2 c (List.mem_of_mem_filter hc)⟩
  · rename_i hb
    refine ⟨memRising_memInsert a b m h.1, fun c hc => ?_⟩
    rcases mem_memInsert hc with rfl | hc
    · exact ⟨ha, hb⟩
    · exact h.2 c hc

/-! ## The state's operations -/

theorem maskAddr_lt (a : Nat) : maskAddr a < 0x1000 := Nat.mod_lt _ (by decide)

/-- `MemWrite` then `MemRead`, at any two addresses (R61 to R63). -/
theorem State.readByte_writeByte (s : State) (a k : Nat) (b : Byte) :
    (s.writeByte a b).readByte k = if maskAddr k = maskAddr a then b else s.readByte k := by
  simp [State.readByte, State.writeByte, memRead_memWrite]

/-- A block of writes changes MEM alone. -/
theorem State.writeBytes_eq_setMem (s : State) (a : Nat) (bs : List Byte) :
    s.writeBytes a bs = s.setMem (s.writeBytes a bs).mem := by
  induction bs generalizing s a with
  | nil => rfl
  | cons b bs ih =>
    rw [State.writeBytes, ih]
    rfl

section writeBytes
variable (s : State) (a : Nat) (bs : List Byte)

@[simp] theorem State.writeBytes_v : (s.writeBytes a bs).v = s.v := by rw [State.writeBytes_eq_setMem]; rfl
@[simp] theorem State.writeBytes_i : (s.writeBytes a bs).i = s.i := by rw [State.writeBytes_eq_setMem]; rfl
@[simp] theorem State.writeBytes_pc : (s.writeBytes a bs).pc = s.pc := by rw [State.writeBytes_eq_setMem]; rfl
@[simp] theorem State.writeBytes_stack : (s.writeBytes a bs).stack = s.stack := by rw [State.writeBytes_eq_setMem]; rfl
@[simp] theorem State.writeBytes_dt : (s.writeBytes a bs).dt = s.dt := by rw [State.writeBytes_eq_setMem]; rfl
@[simp] theorem State.writeBytes_st : (s.writeBytes a bs).st = s.st := by rw [State.writeBytes_eq_setMem]; rfl
@[simp] theorem State.writeBytes_fb : (s.writeBytes a bs).fb = s.fb := by rw [State.writeBytes_eq_setMem]; rfl
@[simp] theorem State.writeBytes_keys : (s.writeBytes a bs).keys = s.keys := by rw [State.writeBytes_eq_setMem]; rfl
@[simp] theorem State.writeBytes_kw : (s.writeBytes a bs).kw = s.kw := by rw [State.writeBytes_eq_setMem]; rfl
@[simp] theorem State.writeBytes_run : (s.writeBytes a bs).run = s.run := by rw [State.writeBytes_eq_setMem]; rfl
@[simp] theorem State.writeBytes_program : (s.writeBytes a bs).program = s.program := by
  rw [State.writeBytes_eq_setMem]; rfl
@[simp] theorem State.writeBytes_slots : (s.writeBytes a bs).slots = s.slots := by
  rw [State.writeBytes_eq_setMem]; rfl
@[simp] theorem State.writeBytes_params : (s.writeBytes a bs).params = s.params := by
  rw [State.writeBytes_eq_setMem]; rfl
@[simp] theorem State.writeBytes_inputs : (s.writeBytes a bs).inputs = s.inputs := by
  rw [State.writeBytes_eq_setMem]; rfl
@[simp] theorem State.writeBytes_draws : (s.writeBytes a bs).draws = s.draws := by
  rw [State.writeBytes_eq_setMem]; rfl
@[simp] theorem State.writeBytes_reg (r : Reg) : (s.writeBytes a bs).reg r = s.reg r := by
  rw [State.writeBytes_eq_setMem]; rfl
@[simp] theorem State.writeBytes_key (k : Key) : (s.writeBytes a bs).key k = s.key k := by
  rw [State.writeBytes_eq_setMem]; rfl

end writeBytes

/-- A block of writes leaves every address outside its masked range alone. -/
theorem State.readByte_writeBytes_outside (s : State) (a : Nat) (bs : List Byte) (k : Nat)
    (h : ∀ j, j < bs.length → maskAddr k ≠ maskAddr (a + j)) :
    (s.writeBytes a bs).readByte k = s.readByte k := by
  induction bs generalizing s a with
  | nil => rfl
  | cons b bs ih =>
    rw [State.writeBytes, ih, State.readByte_writeByte, if_neg]
    · simpa using h 0 (by simp)
    · intro j hj
      have := h (j + 1) (by simpa using hj)
      rwa [show a + (j + 1) = a + 1 + j by omega] at this

/-- A block of at most 4096 writes leaves byte `j` at address `a + j`. -/
theorem State.readByte_writeBytes_inside (s : State) (a : Nat) (bs : List Byte) (j : Nat)
    (hj : j < bs.length) (hn : bs.length ≤ 0x1000) :
    (s.writeBytes a bs).readByte (a + j) = bs[j] := by
  induction bs generalizing s a j with
  | nil => simp at hj
  | cons b bs ih =>
    have hn' : bs.length + 1 ≤ 4096 := by simpa using hn
    rw [State.writeBytes]
    cases j with
    | zero =>
      rw [State.readByte_writeBytes_outside]
      · simp [State.readByte_writeByte]
      · intro j hj
        simp only [maskAddr]
        omega
    | succ j =>
      rw [show a + (j + 1) = a + 1 + j by omega, ih (s.writeByte a b) (a + 1) j (by simpa using hj)]
      · rfl
      · omega

/-- A block of writes keeps the canonical form. -/
theorem State.wf_writeBytes (s : State) (a : Nat) (bs : List Byte) (h : s.mem.wf s.params = true) :
    (s.writeBytes a bs).mem.wf s.params = true := by
  induction bs generalizing s a with
  | nil => exact h
  | cons b bs ih =>
    rw [State.writeBytes]
    exact ih (s.writeByte a b) (a + 1) (Memory.wf_memWrite b (maskAddr_lt a) h)

/-- A block of reads, byte by byte. -/
theorem State.readBytes_length (s : State) (a n : Nat) : (s.readBytes a n).length = n := by
  induction n generalizing a with
  | zero => rfl
  | succ n ih => simp [State.readBytes, ih]

theorem State.readBytes_getElem (s : State) (a n j : Nat) (hj : j < (s.readBytes a n).length) :
    (s.readBytes a n)[j] = s.readByte (a + j) := by
  induction n generalizing a j with
  | zero => simp [State.readBytes] at hj
  | succ n ih =>
    cases j with
    | zero => rfl
    | succ j =>
      simp only [State.readBytes, List.getElem_cons_succ]
      rw [ih, show a + 1 + j = a + (j + 1) by omega]

end Sys2Proof.Machine
end

