-- ==== Sys2Proof/Laws/Registers.lean ====
section
/-! SUPPORT. What writing registers, the flag, the stack and the PC does (10_state.md R20 to R27, 44_alu.md R169). -/

namespace Sys2Proof.Machine

/-- `V[x] <- b` then a read of any register. -/
@[simp] theorem State.reg_setReg (s : State) (x y : Reg) (b : Byte) :
    (s.setReg x b).reg y = if y = x then b else s.reg y := by
  simp only [State.reg, State.setReg, State.setV_v, Vector.getElem_set, Fin.val_inj]
  simp only [eq_comm]

/-! A register write changes V alone. -/

section setReg
variable (s : State) (x : Reg) (b : Byte)

@[simp] theorem State.setReg_i : (s.setReg x b).i = s.i := rfl
@[simp] theorem State.setReg_pc : (s.setReg x b).pc = s.pc := rfl
@[simp] theorem State.setReg_stack : (s.setReg x b).stack = s.stack := rfl
@[simp] theorem State.setReg_dt : (s.setReg x b).dt = s.dt := rfl
@[simp] theorem State.setReg_st : (s.setReg x b).st = s.st := rfl
@[simp] theorem State.setReg_fb : (s.setReg x b).fb = s.fb := rfl
@[simp] theorem State.setReg_keys : (s.setReg x b).keys = s.keys := rfl
@[simp] theorem State.setReg_kw : (s.setReg x b).kw = s.kw := rfl
@[simp] theorem State.setReg_mem : (s.setReg x b).mem = s.mem := rfl
@[simp] theorem State.setReg_run : (s.setReg x b).run = s.run := rfl
@[simp] theorem State.setReg_program : (s.setReg x b).program = s.program := rfl
@[simp] theorem State.setReg_slots : (s.setReg x b).slots = s.slots := rfl
@[simp] theorem State.setReg_params : (s.setReg x b).params = s.params := rfl
@[simp] theorem State.setReg_inputs : (s.setReg x b).inputs = s.inputs := rfl
@[simp] theorem State.setReg_draws : (s.setReg x b).draws = s.draws := rfl
@[simp] theorem State.setReg_readByte (k : Nat) : (s.setReg x b).readByte k = s.readByte k := rfl

end setReg

/-! So do the flag, and a result with its flag. -/

section setFlag
variable (s : State) (c : Bool)

@[simp] theorem State.setFlag_i : (s.setFlag c).i = s.i := rfl
@[simp] theorem State.setFlag_pc : (s.setFlag c).pc = s.pc := rfl
@[simp] theorem State.setFlag_stack : (s.setFlag c).stack = s.stack := rfl
@[simp] theorem State.setFlag_dt : (s.setFlag c).dt = s.dt := rfl
@[simp] theorem State.setFlag_st : (s.setFlag c).st = s.st := rfl
@[simp] theorem State.setFlag_fb : (s.setFlag c).fb = s.fb := rfl
@[simp] theorem State.setFlag_keys : (s.setFlag c).keys = s.keys := rfl
@[simp] theorem State.setFlag_kw : (s.setFlag c).kw = s.kw := rfl
@[simp] theorem State.setFlag_mem : (s.setFlag c).mem = s.mem := rfl
@[simp] theorem State.setFlag_run : (s.setFlag c).run = s.run := rfl
@[simp] theorem State.setFlag_program : (s.setFlag c).program = s.program := rfl
@[simp] theorem State.setFlag_slots : (s.setFlag c).slots = s.slots := rfl
@[simp] theorem State.setFlag_params : (s.setFlag c).params = s.params := rfl
@[simp] theorem State.setFlag_inputs : (s.setFlag c).inputs = s.inputs := rfl
@[simp] theorem State.setFlag_draws : (s.setFlag c).draws = s.draws := rfl
@[simp] theorem State.setFlag_readByte (k : Nat) : (s.setFlag c).readByte k = s.readByte k := rfl

end setFlag

section setResultAndFlag
variable (s : State) (x : Reg) (b : Byte) (c : Bool)

@[simp] theorem State.setResultAndFlag_i : (s.setResultAndFlag x b c).i = s.i := rfl
@[simp] theorem State.setResultAndFlag_pc : (s.setResultAndFlag x b c).pc = s.pc := rfl
@[simp] theorem State.setResultAndFlag_stack : (s.setResultAndFlag x b c).stack = s.stack := rfl
@[simp] theorem State.setResultAndFlag_dt : (s.setResultAndFlag x b c).dt = s.dt := rfl
@[simp] theorem State.setResultAndFlag_st : (s.setResultAndFlag x b c).st = s.st := rfl
@[simp] theorem State.setResultAndFlag_fb : (s.setResultAndFlag x b c).fb = s.fb := rfl
@[simp] theorem State.setResultAndFlag_keys : (s.setResultAndFlag x b c).keys = s.keys := rfl
@[simp] theorem State.setResultAndFlag_kw : (s.setResultAndFlag x b c).kw = s.kw := rfl
@[simp] theorem State.setResultAndFlag_mem : (s.setResultAndFlag x b c).mem = s.mem := rfl
@[simp] theorem State.setResultAndFlag_run : (s.setResultAndFlag x b c).run = s.run := rfl
@[simp] theorem State.setResultAndFlag_program : (s.setResultAndFlag x b c).program = s.program := rfl
@[simp] theorem State.setResultAndFlag_slots : (s.setResultAndFlag x b c).slots = s.slots := rfl
@[simp] theorem State.setResultAndFlag_params : (s.setResultAndFlag x b c).params = s.params := rfl
@[simp] theorem State.setResultAndFlag_inputs : (s.setResultAndFlag x b c).inputs = s.inputs := rfl
@[simp] theorem State.setResultAndFlag_draws : (s.setResultAndFlag x b c).draws = s.draws := rfl
@[simp] theorem State.setResultAndFlag_readByte (k : Nat) : (s.setResultAndFlag x b c).readByte k = s.readByte k := rfl

end setResultAndFlag

/-- A result and then the flag: VF holds the flag whatever X is, X the result unless it is VF (R169). -/
@[simp] theorem State.reg_setResultAndFlag (s : State) (x y : Reg) (b : Byte) (c : Bool) :
    (s.setResultAndFlag x b c).reg y = if y = vf then flagByte c else if y = x then b else s.reg y := by
  simp [State.setResultAndFlag, State.setFlag]

/-- A block of register writes changes V alone. -/
theorem State.setRegsFrom_eq_setV (s : State) (r : Nat) (bs : List Byte) :
    s.setRegsFrom r bs = s.setV (s.setRegsFrom r bs).v := by
  induction bs generalizing s r with
  | nil => rfl
  | cons b bs ih =>
    rw [State.setRegsFrom, ih]
    rfl

section setRegsFrom
variable (s : State) (r : Nat) (bs : List Byte)

@[simp] theorem State.setRegsFrom_i : (s.setRegsFrom r bs).i = s.i := by rw [State.setRegsFrom_eq_setV]; rfl
@[simp] theorem State.setRegsFrom_pc : (s.setRegsFrom r bs).pc = s.pc := by rw [State.setRegsFrom_eq_setV]; rfl
@[simp] theorem State.setRegsFrom_stack : (s.setRegsFrom r bs).stack = s.stack := by rw [State.setRegsFrom_eq_setV]; rfl
@[simp] theorem State.setRegsFrom_dt : (s.setRegsFrom r bs).dt = s.dt := by rw [State.setRegsFrom_eq_setV]; rfl
@[simp] theorem State.setRegsFrom_st : (s.setRegsFrom r bs).st = s.st := by rw [State.setRegsFrom_eq_setV]; rfl
@[simp] theorem State.setRegsFrom_fb : (s.setRegsFrom r bs).fb = s.fb := by rw [State.setRegsFrom_eq_setV]; rfl
@[simp] theorem State.setRegsFrom_keys : (s.setRegsFrom r bs).keys = s.keys := by rw [State.setRegsFrom_eq_setV]; rfl
@[simp] theorem State.setRegsFrom_kw : (s.setRegsFrom r bs).kw = s.kw := by rw [State.setRegsFrom_eq_setV]; rfl
@[simp] theorem State.setRegsFrom_mem : (s.setRegsFrom r bs).mem = s.mem := by rw [State.setRegsFrom_eq_setV]; rfl
@[simp] theorem State.setRegsFrom_run : (s.setRegsFrom r bs).run = s.run := by rw [State.setRegsFrom_eq_setV]; rfl
@[simp] theorem State.setRegsFrom_program : (s.setRegsFrom r bs).program = s.program := by rw [State.setRegsFrom_eq_setV]; rfl
@[simp] theorem State.setRegsFrom_slots : (s.setRegsFrom r bs).slots = s.slots := by rw [State.setRegsFrom_eq_setV]; rfl
@[simp] theorem State.setRegsFrom_params : (s.setRegsFrom r bs).params = s.params := by rw [State.setRegsFrom_eq_setV]; rfl
@[simp] theorem State.setRegsFrom_inputs : (s.setRegsFrom r bs).inputs = s.inputs := by rw [State.setRegsFrom_eq_setV]; rfl
@[simp] theorem State.setRegsFrom_draws : (s.setRegsFrom r bs).draws = s.draws := by rw [State.setRegsFrom_eq_setV]; rfl
@[simp] theorem State.setRegsFrom_readByte (k : Nat) : (s.setRegsFrom r bs).readByte k = s.readByte k := by rw [State.setRegsFrom_eq_setV]; rfl

end setRegsFrom

/-- A block of register writes that does not run past VF: register `y` takes byte `y - r` if there is one. -/
theorem State.reg_setRegsFrom (s : State) (r : Nat) (bs : List Byte) (y : Reg) (h : r + bs.length ≤ 16) :
    (s.setRegsFrom r bs).reg y = if r ≤ y.val then bs.getD (y.val - r) (s.reg y) else s.reg y := by
  induction bs generalizing s r with
  | nil => simp [State.setRegsFrom]
  | cons b bs ih =>
    have hl : r + (bs.length + 1) ≤ 16 := by simpa using h
    have hr : (Fin.ofNat 16 r).val = r := Nat.mod_eq_of_lt (by omega)
    rw [State.setRegsFrom, ih _ _ (by omega), State.reg_setReg]
    generalize Fin.ofNat 16 r = z at hr
    by_cases hy : y.val = r
    · have : y = z := Fin.ext (by rw [hr, hy])
      simp [this, hr]
    · have hne : y ≠ z := fun e => hy (by rw [e, hr])
      by_cases hle : r ≤ y.val
      · obtain ⟨k, hk⟩ : ∃ k, y.val = r + 1 + k := ⟨y.val - (r + 1), by omega⟩
        simp [hne, hk, show r + 1 + k - r = k + 1 by omega, show r ≤ r + 1 + k by omega]
      · simp [hne, hle, show ¬ r + 1 ≤ y.val by omega]

/-- The first registers, in order (R250). -/
theorem State.firstRegs_length (s : State) (n : Nat) (h : n ≤ 16) : (s.firstRegs n).length = n := by
  simp [State.firstRegs, h]

theorem State.firstRegs_getElem (s : State) (n j : Nat) (hj : j < (s.firstRegs n).length) (h : j < 16) :
    (s.firstRegs n)[j] = s.reg ⟨j, h⟩ := by
  simp [State.firstRegs, State.reg]

/-- A skip moves the PC alone, by 2, when the condition holds (R144). -/
theorem State.skipIf_eq_setPc (s : State) (c : Bool) : s.skipIf c = s.setPc (if c then s.pc + 2 else s.pc) := by
  cases c <;> rfl

/-- Inside an instruction, `A` is where the step found the PC (R92). -/
@[simp] theorem State.insnAddr_advance (s : State) : s.advance.insnAddr = s.pc := by
  simp [State.insnAddr, State.advance]

end Sys2Proof.Machine
end

