-- ==== Sys2Proof/Laws/Step.lean ====
section
/-! SUPPORT. What the shared parts of a step can do, said once (30_encoding.md R92). -/

namespace Sys2Proof.Machine

/-- The executor's step, taken apart: the three ways it answers a next state (R92). -/
theorem executorStep_next {s t : State} (h : executorStep s = .next t) :
    (∃ x, s.kw = .waiting x ∧ t = s) ∨
    (∃ x k, s.kw = .captured x k ∧ t = completeKeyWait x k s) ∨
    (s.kw = .idle ∧ ∃ i, decodeWord s.fetch = .ok i ∧ exec i s.advance = .next t) := by
  unfold executorStep at h
  split at h
  · rename_i x hk; cases h; exact .inl ⟨x, hk, rfl⟩
  · rename_i x k hk; cases h; exact .inr (.inl ⟨x, k, hk, rfl⟩)
  · rename_i hk
    refine .inr (.inr ⟨hk, ?_⟩)
    unfold runInstruction at h
    split at h
    · rename_i i hi; exact ⟨i, hi, h⟩
    · cases h

/-- The executor's step, taken apart: it faults in decode or in the instruction (R269). -/
theorem executorStep_fault {s : State} {f : Fault} (h : executorStep s = .fault f) :
    s.kw = .idle ∧
      ((∃ e, decodeWord s.fetch = .error e ∧ f = .invalidOpcode s.fetch s.pc s.advance) ∨
       (∃ i, decodeWord s.fetch = .ok i ∧ exec i s.advance = .fault f)) := by
  unfold executorStep at h
  split at h
  · cases h
  · cases h
  · rename_i hk
    refine ⟨hk, ?_⟩
    unfold runInstruction at h
    split at h
    · rename_i i hi; exact .inr ⟨i, hi, h⟩
    · rename_i e he; cases h; exact .inl ⟨e, he, rfl⟩

@[simp] theorem State.dropEvent_eq (s : State) : s.dropEvent = s.setInputs s.inputs.tail := rfl

section clearBlock
variable (s : State)

@[simp] theorem State.clearBlock_keys : s.clearBlock.keys = s.keys := rfl
@[simp] theorem State.clearBlock_mem : s.clearBlock.mem = s.mem := rfl
@[simp] theorem State.clearBlock_run : s.clearBlock.run = s.run := rfl
@[simp] theorem State.clearBlock_program : s.clearBlock.program = s.program := rfl
@[simp] theorem State.clearBlock_slots : s.clearBlock.slots = s.slots := rfl
@[simp] theorem State.clearBlock_params : s.clearBlock.params = s.params := rfl
@[simp] theorem State.clearBlock_inputs : s.clearBlock.inputs = s.inputs := rfl
@[simp] theorem State.clearBlock_draws : s.clearBlock.draws = s.draws := rfl

end clearBlock

/-- Restoring a snapshot and taking one are inverse (R295, R296). -/
@[simp] theorem State.snapshot_restoreSnapshot (s : State) (n : Snapshot) : (s.restoreSnapshot n).snapshot = n := rfl

end Sys2Proof.Machine
end

