-- ==== Sys2Proof/Laws/Frame.lean ====
section
/-! SUPPORT. Frames of the named operations: what each leaves unchanged, and how frames compose. -/

namespace Sys2Proof.Machine

/-- Nothing changed. -/
theorem Unchanged.refl (f : Footprint) (s : State) : Unchanged f s s := by
  constructor <;> intros <;> rfl

/-- Two changes inside one footprint. -/
theorem Unchanged.trans {f : Footprint} {s t u : State} (h : Unchanged f s t) (k : Unchanged f t u) :
    Unchanged f s u where
  regs r hr := (k.regs r hr).trans (h.regs r hr)
  bytes a ha := (k.bytes a ha).trans (h.bytes a ha)
  i hp := (k.i hp).trans (h.i hp)
  pc hp := (k.pc hp).trans (h.pc hp)
  stack hp := (k.stack hp).trans (h.stack hp)
  dt hp := (k.dt hp).trans (h.dt hp)
  st hp := (k.st hp).trans (h.st hp)
  fb hp := (k.fb hp).trans (h.fb hp)
  keys hp := (k.keys hp).trans (h.keys hp)
  kw hp := (k.kw hp).trans (h.kw hp)
  draws hp := (k.draws hp).trans (h.draws hp)
  run := k.run.trans h.run
  program := k.program.trans h.program
  slots := k.slots.trans h.slots
  params := k.params.trans h.params
  inputs := k.inputs.trans h.inputs

/-- A wider footprint. -/
theorem Unchanged.mono {f g : Footprint} {s t : State} (h : Unchanged f s t) (hr : f.regs ⊆ g.regs)
    (hb : f.bytes ⊆ g.bytes) (hp : f.parts ⊆ g.parts) : Unchanged g s t where
  regs r hx := h.regs r fun hm => hx (hr hm)
  bytes a hx := h.bytes a fun hm => hx (hb hm)
  i hx := h.i fun hm => hx (hp hm)
  pc hx := h.pc fun hm => hx (hp hm)
  stack hx := h.stack fun hm => hx (hp hm)
  dt hx := h.dt fun hm => hx (hp hm)
  st hx := h.st fun hm => hx (hp hm)
  fb hx := h.fb fun hm => hx (hp hm)
  keys hx := h.keys fun hm => hx (hp hm)
  kw hx := h.kw fun hm => hx (hp hm)
  draws hx := h.draws fun hm => hx (hp hm)
  run := h.run
  program := h.program
  slots := h.slots
  params := h.params
  inputs := h.inputs

section
variable (s : State)

theorem Unchanged.setReg (x : Reg) (b : Byte) : Unchanged { regs := [x] } s (s.setReg x b) := by
  constructor <;> simp_all

theorem Unchanged.setResultAndFlag (x : Reg) (b : Byte) (c : Bool) :
    Unchanged { regs := [x, vf] } s (s.setResultAndFlag x b c) := by
  constructor <;> simp_all

theorem Unchanged.setPc (w : Word) : Unchanged { parts := [.pc] } s (s.setPc w) := by
  constructor <;> simp

theorem Unchanged.setI (w : Word) : Unchanged { parts := [.i] } s (s.setI w) := by
  constructor <;> simp

theorem Unchanged.setStack (l : List Word) : Unchanged { parts := [.stack] } s (s.setStack l) := by
  constructor <;> simp

theorem Unchanged.setDt (b : Byte) : Unchanged { parts := [.dt] } s (s.setDt b) := by
  constructor <;> simp

theorem Unchanged.setSt (b : Byte) : Unchanged { parts := [.st] } s (s.setSt b) := by
  constructor <;> simp

theorem Unchanged.setFb (f : FrameBuffer) : Unchanged { parts := [.fb] } s (s.setFb f) := by
  constructor <;> simp

theorem Unchanged.setKeys (k : Vector Bool 16) : Unchanged { parts := [.keys] } s (s.setKeys k) := by
  constructor <;> simp

theorem Unchanged.setKw (k : KeyWait) : Unchanged { parts := [.kw] } s (s.setKw k) := by
  constructor <;> simp

theorem Unchanged.setDraws (n : Nat) : Unchanged { parts := [.draws] } s (s.setDraws n) := by
  constructor <;> simp

/-- A block of writes touches its masked range alone. -/
theorem Unchanged.writeBytes (a : Nat) (bs : List Byte) :
    Unchanged { bytes := maskedRange a bs.length } s (s.writeBytes a bs) := by
  constructor <;> try simp
  intro k hk
  apply State.readByte_writeBytes_outside
  intro j hj he
  exact hk (List.mem_map.2 ⟨j, List.mem_range.2 hj, he.symm⟩)

/-- A block of register writes touches those registers alone. -/
theorem Unchanged.setRegsFrom (x : Reg) (bs : List Byte) (h : bs.length = x.val + 1) :
    Unchanged { regs := (List.finRange 16).filter (fun r => r ≤ x) } s (s.setRegsFrom 0 bs) := by
  constructor <;> try simp
  intro r hr
  have hx := x.isLt
  rw [State.reg_setRegsFrom s 0 bs r (by omega), List.getD_eq_default]
  · simp
  · have : x.val < r.val := hr
    simp only [Nat.sub_zero]
    omega

end

end Sys2Proof.Machine
end

