-- ==== Sys2Proof/Laws/PerInstr.lean ====
section
/-! SUPPORT. A statement about every instruction as syntax, one lemma per constructor: the encoder writes the fixed digits of
the instruction's own row of the opcode table (30_encoding.md R97, R100). -/

namespace Sys2Proof.Laws

/-- Some row of R100 has the instruction's mnemonic, and the encoded instruction matches it. -/
def FixedBits.Statement (i : Instr) : Prop :=
  ∃ r ∈ opcodeRows, r.mnemonic = i.mnemonic ∧ rowMatches r (encode i) = true

theorem FixedBits.cls : FixedBits.Statement (.cls) :=
  ⟨⟨"CLS", 0xFFFF, 0x00E0⟩, by decide, rfl,
    by decide⟩

theorem FixedBits.ret : FixedBits.Statement (.ret) :=
  ⟨⟨"RET", 0xFFFF, 0x00EE⟩, by decide, rfl,
    by decide⟩

theorem FixedBits.jp (nnn : Addr) : FixedBits.Statement (.jp nnn) :=
  ⟨⟨"JP", 0xF000, 0x1000⟩, by decide, rfl,
    beq_iff_eq.2 ((and_F000_eq _ 0x1).2 (opField_formatA _ _))⟩

theorem FixedBits.call (nnn : Addr) : FixedBits.Statement (.call nnn) :=
  ⟨⟨"CALL", 0xF000, 0x2000⟩, by decide, rfl,
    beq_iff_eq.2 ((and_F000_eq _ 0x2).2 (opField_formatA _ _))⟩

theorem FixedBits.seImm (x : Reg) (nn : Byte) : FixedBits.Statement (.seImm x nn) :=
  ⟨⟨"SE_IMM", 0xF000, 0x3000⟩, by decide, rfl,
    beq_iff_eq.2 ((and_F000_eq _ 0x3).2 (opField_formatI _ _ _))⟩

theorem FixedBits.sneImm (x : Reg) (nn : Byte) : FixedBits.Statement (.sneImm x nn) :=
  ⟨⟨"SNE_IMM", 0xF000, 0x4000⟩, by decide, rfl,
    beq_iff_eq.2 ((and_F000_eq _ 0x4).2 (opField_formatI _ _ _))⟩

theorem FixedBits.seReg (x y : Reg) : FixedBits.Statement (.seReg x y) :=
  ⟨⟨"SE_REG", 0xF00F, 0x5000⟩, by decide, rfl,
    beq_iff_eq.2 ((and_F00F_eq _ 0x5 0x0).2 ⟨opField_formatR _ _ _ _, nField_formatR _ _ _ _⟩)⟩

theorem FixedBits.ldImm (x : Reg) (nn : Byte) : FixedBits.Statement (.ldImm x nn) :=
  ⟨⟨"LD_IMM", 0xF000, 0x6000⟩, by decide, rfl,
    beq_iff_eq.2 ((and_F000_eq _ 0x6).2 (opField_formatI _ _ _))⟩

theorem FixedBits.addImm (x : Reg) (nn : Byte) : FixedBits.Statement (.addImm x nn) :=
  ⟨⟨"ADD_IMM", 0xF000, 0x7000⟩, by decide, rfl,
    beq_iff_eq.2 ((and_F000_eq _ 0x7).2 (opField_formatI _ _ _))⟩

theorem FixedBits.ldReg (x y : Reg) : FixedBits.Statement (.ldReg x y) :=
  ⟨⟨"LD_REG", 0xF00F, 0x8000⟩, by decide, rfl,
    beq_iff_eq.2 ((and_F00F_eq _ 0x8 0x0).2 ⟨opField_formatR _ _ _ _, nField_formatR _ _ _ _⟩)⟩

theorem FixedBits.orReg (x y : Reg) : FixedBits.Statement (.orReg x y) :=
  ⟨⟨"OR", 0xF00F, 0x8001⟩, by decide, rfl,
    beq_iff_eq.2 ((and_F00F_eq _ 0x8 0x1).2 ⟨opField_formatR _ _ _ _, nField_formatR _ _ _ _⟩)⟩

theorem FixedBits.andReg (x y : Reg) : FixedBits.Statement (.andReg x y) :=
  ⟨⟨"AND", 0xF00F, 0x8002⟩, by decide, rfl,
    beq_iff_eq.2 ((and_F00F_eq _ 0x8 0x2).2 ⟨opField_formatR _ _ _ _, nField_formatR _ _ _ _⟩)⟩

theorem FixedBits.xorReg (x y : Reg) : FixedBits.Statement (.xorReg x y) :=
  ⟨⟨"XOR", 0xF00F, 0x8003⟩, by decide, rfl,
    beq_iff_eq.2 ((and_F00F_eq _ 0x8 0x3).2 ⟨opField_formatR _ _ _ _, nField_formatR _ _ _ _⟩)⟩

theorem FixedBits.addReg (x y : Reg) : FixedBits.Statement (.addReg x y) :=
  ⟨⟨"ADD_REG", 0xF00F, 0x8004⟩, by decide, rfl,
    beq_iff_eq.2 ((and_F00F_eq _ 0x8 0x4).2 ⟨opField_formatR _ _ _ _, nField_formatR _ _ _ _⟩)⟩

theorem FixedBits.sub (x y : Reg) : FixedBits.Statement (.sub x y) :=
  ⟨⟨"SUB", 0xF00F, 0x8005⟩, by decide, rfl,
    beq_iff_eq.2 ((and_F00F_eq _ 0x8 0x5).2 ⟨opField_formatR _ _ _ _, nField_formatR _ _ _ _⟩)⟩

theorem FixedBits.shr (x y : Reg) : FixedBits.Statement (.shr x y) :=
  ⟨⟨"SHR", 0xF00F, 0x8006⟩, by decide, rfl,
    beq_iff_eq.2 ((and_F00F_eq _ 0x8 0x6).2 ⟨opField_formatR _ _ _ _, nField_formatR _ _ _ _⟩)⟩

theorem FixedBits.subn (x y : Reg) : FixedBits.Statement (.subn x y) :=
  ⟨⟨"SUBN", 0xF00F, 0x8007⟩, by decide, rfl,
    beq_iff_eq.2 ((and_F00F_eq _ 0x8 0x7).2 ⟨opField_formatR _ _ _ _, nField_formatR _ _ _ _⟩)⟩

theorem FixedBits.shl (x y : Reg) : FixedBits.Statement (.shl x y) :=
  ⟨⟨"SHL", 0xF00F, 0x800E⟩, by decide, rfl,
    beq_iff_eq.2 ((and_F00F_eq _ 0x8 0xE).2 ⟨opField_formatR _ _ _ _, nField_formatR _ _ _ _⟩)⟩

theorem FixedBits.sneReg (x y : Reg) : FixedBits.Statement (.sneReg x y) :=
  ⟨⟨"SNE_REG", 0xF00F, 0x9000⟩, by decide, rfl,
    beq_iff_eq.2 ((and_F00F_eq _ 0x9 0x0).2 ⟨opField_formatR _ _ _ _, nField_formatR _ _ _ _⟩)⟩

theorem FixedBits.ldI (nnn : Addr) : FixedBits.Statement (.ldI nnn) :=
  ⟨⟨"LD_I", 0xF000, 0xA000⟩, by decide, rfl,
    beq_iff_eq.2 ((and_F000_eq _ 0xA).2 (opField_formatA _ _))⟩

theorem FixedBits.jpV0 (nnn : Addr) : FixedBits.Statement (.jpV0 nnn) :=
  ⟨⟨"JP_V0", 0xF000, 0xB000⟩, by decide, rfl,
    beq_iff_eq.2 ((and_F000_eq _ 0xB).2 (opField_formatA _ _))⟩

theorem FixedBits.rnd (x : Reg) (nn : Byte) : FixedBits.Statement (.rnd x nn) :=
  ⟨⟨"RND", 0xF000, 0xC000⟩, by decide, rfl,
    beq_iff_eq.2 ((and_F000_eq _ 0xC).2 (opField_formatI _ _ _))⟩

theorem FixedBits.drw (x y : Reg) (n : Nibble) : FixedBits.Statement (.drw x y n) :=
  ⟨⟨"DRW", 0xF000, 0xD000⟩, by decide, rfl,
    beq_iff_eq.2 ((and_F000_eq _ 0xD).2 (opField_formatR _ _ _ _))⟩

theorem FixedBits.skp (x : Reg) : FixedBits.Statement (.skp x) :=
  ⟨⟨"SKP", 0xF0FF, 0xE09E⟩, by decide, rfl,
    beq_iff_eq.2 ((and_F0FF_eq _ 0xE 0x9E).2 ⟨opField_formatI _ _ _, nnField_formatI _ _ _⟩)⟩

theorem FixedBits.sknp (x : Reg) : FixedBits.Statement (.sknp x) :=
  ⟨⟨"SKNP", 0xF0FF, 0xE0A1⟩, by decide, rfl,
    beq_iff_eq.2 ((and_F0FF_eq _ 0xE 0xA1).2 ⟨opField_formatI _ _ _, nnField_formatI _ _ _⟩)⟩

theorem FixedBits.ldVxDt (x : Reg) : FixedBits.Statement (.ldVxDt x) :=
  ⟨⟨"LD_VX_DT", 0xF0FF, 0xF007⟩, by decide, rfl,
    beq_iff_eq.2 ((and_F0FF_eq _ 0xF 0x07).2 ⟨opField_formatI _ _ _, nnField_formatI _ _ _⟩)⟩

theorem FixedBits.ldVxK (x : Reg) : FixedBits.Statement (.ldVxK x) :=
  ⟨⟨"LD_VX_K", 0xF0FF, 0xF00A⟩, by decide, rfl,
    beq_iff_eq.2 ((and_F0FF_eq _ 0xF 0x0A).2 ⟨opField_formatI _ _ _, nnField_formatI _ _ _⟩)⟩

theorem FixedBits.ldDtVx (x : Reg) : FixedBits.Statement (.ldDtVx x) :=
  ⟨⟨"LD_DT_VX", 0xF0FF, 0xF015⟩, by decide, rfl,
    beq_iff_eq.2 ((and_F0FF_eq _ 0xF 0x15).2 ⟨opField_formatI _ _ _, nnField_formatI _ _ _⟩)⟩

theorem FixedBits.ldStVx (x : Reg) : FixedBits.Statement (.ldStVx x) :=
  ⟨⟨"LD_ST_VX", 0xF0FF, 0xF018⟩, by decide, rfl,
    beq_iff_eq.2 ((and_F0FF_eq _ 0xF 0x18).2 ⟨opField_formatI _ _ _, nnField_formatI _ _ _⟩)⟩

theorem FixedBits.addIVx (x : Reg) : FixedBits.Statement (.addIVx x) :=
  ⟨⟨"ADD_I_VX", 0xF0FF, 0xF01E⟩, by decide, rfl,
    beq_iff_eq.2 ((and_F0FF_eq _ 0xF 0x1E).2 ⟨opField_formatI _ _ _, nnField_formatI _ _ _⟩)⟩

theorem FixedBits.ldFVx (x : Reg) : FixedBits.Statement (.ldFVx x) :=
  ⟨⟨"LD_F_VX", 0xF0FF, 0xF029⟩, by decide, rfl,
    beq_iff_eq.2 ((and_F0FF_eq _ 0xF 0x29).2 ⟨opField_formatI _ _ _, nnField_formatI _ _ _⟩)⟩

theorem FixedBits.ldBVx (x : Reg) : FixedBits.Statement (.ldBVx x) :=
  ⟨⟨"LD_B_VX", 0xF0FF, 0xF033⟩, by decide, rfl,
    beq_iff_eq.2 ((and_F0FF_eq _ 0xF 0x33).2 ⟨opField_formatI _ _ _, nnField_formatI _ _ _⟩)⟩

theorem FixedBits.ldMemVx (x : Reg) : FixedBits.Statement (.ldMemVx x) :=
  ⟨⟨"LD_MEM_VX", 0xF0FF, 0xF055⟩, by decide, rfl,
    beq_iff_eq.2 ((and_F0FF_eq _ 0xF 0x55).2 ⟨opField_formatI _ _ _, nnField_formatI _ _ _⟩)⟩

theorem FixedBits.ldVxMem (x : Reg) : FixedBits.Statement (.ldVxMem x) :=
  ⟨⟨"LD_VX_MEM", 0xF0FF, 0xF065⟩, by decide, rfl,
    beq_iff_eq.2 ((and_F0FF_eq _ 0xF 0x65).2 ⟨opField_formatI _ _ _, nnField_formatI _ _ _⟩)⟩

end Sys2Proof.Laws
end

