-- ==== Sys2Proof/Tests/Slice0.lean ====
section
/-! SUPPORT. Tests. Expected results are the vectors of 95_test_vectors.md, named in each comment, and words written out from
the patterns of 30_encoding.md R100; the witnesses show that the hypotheses of the statements can be met. -/

namespace Sys2Proof.Tests

open Sys2Proof.Machine

/-- The reset state with one word at PC, and then a change. -/
def testState (w : Nat) (f : State → State) : State := f (State.reset.withFetchWord 16 w)

/-- A property of the next state, false of a fault or a refusal. -/
def nextHas (o : Host.Outcome State Fault Refusal) (p : State → Bool) : Bool :=
  match o with
  | .next t => p t
  | .fault _ => false
  | .refused _ => false

/-- A property of the fault, false of a next state or a refusal. -/
def faultHas (o : Host.Outcome State Fault Refusal) (p : Fault → Bool) : Bool :=
  match o with
  | .next _ => false
  | .fault f => p f
  | .refused _ => false

/-! ## Well-formedness: one ill-formed term for each check -/

/-- R11: FONT_BASE + 80 <= 0x200; 0x1B0 is the last place, 0x1B1 is refused. -/
theorem test_font_base_checked :
    Params.wf { defaultParams with fontBase := 0x1B0 } = true ∧ Params.wf { defaultParams with fontBase := 0x1B1 } = false := by
  decide

/-- RS1, RS2: 3584 bytes are accepted, 3585 refused. -/
theorem test_program_length_checked :
    programWf (List.replicate 3584 0) = true ∧ programWf (List.replicate 3585 0) = false := by
  unfold programWf
  rw [List.length_replicate, List.length_replicate]
  decide

/-! ## Decoding: words written out bit by bit from R100 -/

theorem test_decode_display_return :
    decodeWord 0b0000000011100000 = .ok .cls ∧ decodeWord 0b0000000011101110 = .ok .ret := by decide

theorem test_decode_jump_call :
    decodeWord 0b0001001000110100 = .ok (.jp 0x234) ∧ decodeWord 0b0010001100000000 = .ok (.call 0x300) := by decide

theorem test_decode_skips :
    decodeWord 0b0011001100101010 = .ok (.seImm 3 0x2A) ∧ decodeWord 0b0100001100101010 = .ok (.sneImm 3 0x2A) ∧
    decodeWord 0b0101000100100000 = .ok (.seReg 1 2) ∧ decodeWord 0b1001000100100000 = .ok (.sneReg 1 2) := by decide

theorem test_decode_immediate :
    decodeWord 0b0110101001000010 = .ok (.ldImm 10 0x42) ∧ decodeWord 0b0111000100000010 = .ok (.addImm 1 2) := by decide

theorem test_decode_alu_low :
    decodeWord 0b1000000100100000 = .ok (.ldReg 1 2) ∧ decodeWord 0b1000000100100001 = .ok (.orReg 1 2) ∧
    decodeWord 0b1000000100100010 = .ok (.andReg 1 2) ∧ decodeWord 0b1000000100100011 = .ok (.xorReg 1 2) ∧
    decodeWord 0b1000000100100100 = .ok (.addReg 1 2) := by decide

theorem test_decode_alu_high :
    decodeWord 0b1000000100100101 = .ok (.sub 1 2) ∧ decodeWord 0b1000000100100110 = .ok (.shr 1 2) ∧
    decodeWord 0b1000000100100111 = .ok (.subn 1 2) ∧ decodeWord 0b1000000100101110 = .ok (.shl 1 2) := by decide

theorem test_decode_index_jump_random :
    decodeWord 0b1010001000011111 = .ok (.ldI 0x21F) ∧ decodeWord 0b1011001100000000 = .ok (.jpV0 0x300) ∧
    decodeWord 0b1100001100001111 = .ok (.rnd 3 0x0F) := by decide

theorem test_decode_draw_keys :
    decodeWord 0b1101000100100101 = .ok (.drw 1 2 5) ∧ decodeWord 0b1110010010011110 = .ok (.skp 4) ∧
    decodeWord 0b1110010010100001 = .ok (.sknp 4) := by decide

theorem test_decode_timer_keywait :
    decodeWord 0b1111010100000111 = .ok (.ldVxDt 5) ∧ decodeWord 0b1111001100001010 = .ok (.ldVxK 3) ∧
    decodeWord 0b1111010100010101 = .ok (.ldDtVx 5) ∧ decodeWord 0b1111010100011000 = .ok (.ldStVx 5) := by decide

theorem test_decode_index_memory :
    decodeWord 0b1111001000011110 = .ok (.addIVx 2) ∧ decodeWord 0b1111000100101001 = .ok (.ldFVx 1) ∧
    decodeWord 0b1111001100110011 = .ok (.ldBVx 3) ∧ decodeWord 0b1111001001010101 = .ok (.ldMemVx 2) ∧
    decodeWord 0b1111000101100101 = .ok (.ldVxMem 1) := by decide

/-- Table 2.11: words with a meaning elsewhere are illegal here. -/
theorem test_decode_illegal :
    decodeWord 0x00E1 = .error .major0 ∧ decodeWord 0x5AB2 = .error .major5 ∧ decodeWord 0x8AB9 = .error .major8 ∧
    decodeWord 0x9AB1 = .error .major9 ∧ decodeWord 0xE19D = .error .majorE ∧ decodeWord 0xF075 = .error .majorF ∧
    decodeBytes [0x00] = .error .truncated := by decide

/-- R110: the listing of P4's and P1's lines. -/
theorem test_asm : (Instr.ldVxK 2).asm = "LD V2, K" ∧ (Instr.drw 0 0 5).asm = "DRW V0, V0, 5" ∧
    (Instr.ldI 0x21F).asm = "LD I, 21F" := by decide

/-! ## One step of each instruction -/

/-- CR1. -/
theorem test_cls : nextHas (step (testState 0x00E0 fun s => (s.setReg vf 7).setFb (flipPixel s.fb 31 63)))
    (fun t => !pixel t.fb 31 63 && t.pc == 0x202 && t.reg vf == 7) = true := by decide

/-- CR2, at PC = 0x200. -/
theorem test_ret : nextHas (step (testState 0x00EE fun s => s.setStack [0x0204, 0x0310]))
    (fun t => t.pc == 0x0310 && t.stack == [0x0204] && t.sp == 1) = true := by decide

/-- CR3. -/
theorem test_ret_underflow : faultHas (step (testState 0x00EE id))
    (fun f => f == .stackUnderflow 0x200 ((testState 0x00EE id).setPc 0x202)) = true := by decide

/-- JC1. -/
theorem test_jp : nextHas (step (testState 0x1234 id)) (fun t => t.pc == 0x0234) = true := by decide

/-- JC4: a call at 0xFFE pushes 0x1000. -/
theorem test_call : nextHas (step ((State.reset.setPc 0x0FFE).withFetchWord 16 0x2234))
    (fun t => t.stack == [0x1000] && t.pc == 0x0234) = true := by decide

/-- JC5. -/
theorem test_call_overflow : faultHas (step (testState 0x2300 fun s => s.setStack (List.replicate 16 0x0202)))
    (fun f => f == .stackOverflow 0x200 ((testState 0x2300 fun s => s.setStack (List.replicate 16 0x0202)).setPc 0x202)) =
      true := by decide

/-- SK1, SK2. -/
theorem test_seImm :
    nextHas (step (testState 0x332A fun s => s.setReg 3 0x2A)) (fun t => t.pc == 0x204) = true ∧
    nextHas (step (testState 0x332B fun s => s.setReg 3 0x2A)) (fun t => t.pc == 0x202) = true := by decide

/-- SK11: a skip wraps modulo 2^16. -/
theorem test_seImm_wraps : nextHas (step ((State.reset.setPc 0xFFFC).withFetchWord 16 0x3000))
    (fun t => t.pc == 0x0000) = true := by decide

/-- SK3, SK4. -/
theorem test_sneImm :
    nextHas (step (testState 0x432A fun s => s.setReg 3 0x2A)) (fun t => t.pc == 0x202) = true ∧
    nextHas (step (testState 0x4300 fun s => s.setReg 3 0x2A)) (fun t => t.pc == 0x204) = true := by decide

/-- SK5, SK6. -/
theorem test_seReg :
    nextHas (step (testState 0x5120 fun s => (s.setReg 1 7).setReg 2 7)) (fun t => t.pc == 0x204) = true ∧
    nextHas (step (testState 0x5120 fun s => (s.setReg 1 7).setReg 2 8)) (fun t => t.pc == 0x202) = true := by decide

/-- SK7, SK8. -/
theorem test_sneReg :
    nextHas (step (testState 0x9120 fun s => (s.setReg 1 7).setReg 2 8)) (fun t => t.pc == 0x204) = true ∧
    nextHas (step (testState 0x9120 fun s => (s.setReg 1 7).setReg 2 7)) (fun t => t.pc == 0x202) = true := by decide

/-- IM1. -/
theorem test_ldImm : nextHas (step (testState 0x6A42 id)) (fun t => t.reg 10 == 0x42 && t.pc == 0x202) = true := by decide

/-- IM4: the flag is untouched. -/
theorem test_addImm : nextHas (step (testState 0x7101 fun s => (s.setReg 1 0xFF).setReg vf 1))
    (fun t => t.reg 1 == 0 && t.reg vf == 1) = true := by decide

/-- Table 2.5, row 64, C8: V1 = 0x64, V2 = 0xC8, VF = 0x55. -/
def aluState (w : Nat) : State := testState w fun s => ((s.setReg 1 0x64).setReg 2 0xC8).setReg vf 0x55

theorem test_ldReg : nextHas (step (aluState 0x8120)) (fun t => t.reg 1 == 0xC8 && t.reg vf == 0x55) = true := by decide

theorem test_orReg : nextHas (step (aluState 0x8121)) (fun t => t.reg 1 == 0xEC && t.reg vf == 0x55) = true := by decide

theorem test_andReg : nextHas (step (aluState 0x8122)) (fun t => t.reg 1 == 0x40 && t.reg vf == 0x55) = true := by decide

theorem test_xorReg : nextHas (step (aluState 0x8123)) (fun t => t.reg 1 == 0xAC && t.reg vf == 0x55) = true := by decide

theorem test_addReg : nextHas (step (aluState 0x8124)) (fun t => t.reg 1 == 0x2C && t.reg vf == 1) = true := by decide

theorem test_sub : nextHas (step (aluState 0x8125)) (fun t => t.reg 1 == 0x9C && t.reg vf == 0) = true := by decide

theorem test_subn : nextHas (step (aluState 0x8127)) (fun t => t.reg 1 == 0x64 && t.reg vf == 1) = true := by decide

/-- Both values of SHIFT_SRC. -/
theorem test_shr :
    nextHas (step (aluState 0x8126)) (fun t => t.reg 1 == 0x32 && t.reg vf == 0) = true ∧
    nextHas (step { aluState 0x8126 with params := { defaultParams with shiftSrc := .vy } })
      (fun t => t.reg 1 == 0x64 && t.reg vf == 0 && t.reg 2 == 0xC8) = true := by decide

theorem test_shl :
    nextHas (step (aluState 0x812E)) (fun t => t.reg 1 == 0xC8 && t.reg vf == 0) = true ∧
    nextHas (step { aluState 0x812E with params := { defaultParams with shiftSrc := .vy } })
      (fun t => t.reg 1 == 0x90 && t.reg vf == 1 && t.reg 2 == 0xC8) = true := by decide

/-- AL1, AL2: VF as destination and as source. -/
theorem test_addReg_vf :
    nextHas (step (testState 0x8F14 fun s => (s.setReg vf 0xC8).setReg 1 0x64)) (fun t => t.reg vf == 1 && t.reg 1 == 0x64) =
      true ∧
    nextHas (step (testState 0x81F4 fun s => (s.setReg vf 0xC8).setReg 1 0x64)) (fun t => t.reg vf == 1 && t.reg 1 == 0x2C) =
      true := by decide

/-- AL8: SUBN with X = F. -/
theorem test_subn_vf : nextHas (step (testState 0x8F17 fun s => (s.setReg vf 0xC8).setReg 1 0x64))
    (fun t => t.reg vf == 0) = true := by decide

/-- IJ1. -/
theorem test_ldI : nextHas (step (testState 0xA21F fun s => s.setI 0xFFFF)) (fun t => t.i == 0x021F) = true := by decide

/-- IJ5: the sum is stored unmasked. -/
theorem test_jpV0 : nextHas (step (testState 0xBFFF fun s => s.setReg 0 0x03)) (fun t => t.pc == 0x1002) = true := by decide

/-- IJ7: whatever the free byte is, a zero mask gives zero. -/
theorem test_rnd : ∃ t, step (testState 0xC300 fun s => s.setReg 3 9) = .next t ∧ t.reg 3 = 0 ∧ t.draws = 1 := by
  refine ⟨_, rfl, ?_, rfl⟩
  exact BitVec.and_zero

/-- DR4, at most one pixel checked on each edge. -/
theorem test_drw_wraps :
    nextHas (step (testState 0xD122 fun s =>
        (((s.setI 0x300).writeBytes 0x300 [0xFF, 0x81]).setReg 1 0x3E).setReg 2 0x1F))
      (fun t => pixel t.fb 31 63 && pixel t.fb 31 5 && !pixel t.fb 31 6 && pixel t.fb 0 62 && pixel t.fb 0 5 &&
        !pixel t.fb 0 63 && t.reg vf == 0) = true := by decide

/-- DR11: a collision. -/
theorem test_drw_collision :
    nextHas (step (testState 0xD121 fun s => ((s.setI 0x300).writeBytes 0x300 [0xC0]).setFb (flipPixel s.fb 0 0)))
      (fun t => !pixel t.fb 0 0 && pixel t.fb 0 1 && t.reg vf == 1) = true := by decide

/-- KS5, KS6: the low nibble of V4's value names the key. -/
theorem test_skp :
    nextHas (step (testState 0xE49E fun s => (s.setReg 4 0x1A).setKeys (s.keys.set 10 true))) (fun t => t.pc == 0x204) =
      true ∧
    nextHas (step (testState 0xE49E fun s => (s.setReg 4 0x0A).setKeys (s.keys.set 4 true))) (fun t => t.pc == 0x202) =
      true := by decide

/-- KS3, KS4. -/
theorem test_sknp :
    nextHas (step (testState 0xE4A1 fun s => s.setReg 4 0x0A)) (fun t => t.pc == 0x204) = true ∧
    nextHas (step (testState 0xE4A1 fun s => (s.setReg 4 0x0A).setKeys (s.keys.set 10 true))) (fun t => t.pc == 0x202) =
      true := by decide

/-- TK1. -/
theorem test_ldVxDt : nextHas (step (testState 0xF507 fun s => s.setDt 0x3C)) (fun t => t.reg 5 == 0x3C && t.dt == 0x3C) =
    true := by decide

/-- TK2. -/
theorem test_ldDtVx : nextHas (step (testState 0xF515 fun s => s.setReg 5 0x3C)) (fun t => t.dt == 0x3C && t.st == 0) =
    true := by decide

/-- TK3. -/
theorem test_ldStVx : nextHas (step (testState 0xF518 fun s => s.setReg 5 2))
    (fun t => t.st == 2 && t.soundOn && t.dt == 0) = true := by decide

/-- TK10: a held key does not complete the wait. -/
theorem test_ldVxK : nextHas (step (testState 0xF30A fun s => s.setKeys (s.keys.set 5 true)))
    (fun t => t.pc == 0x200 && t.kw == .waiting 3 && t.reg 3 == 0) = true := by decide

/-- TK16, the completing step. -/
theorem test_ldVxK_completes : nextHas (step (State.reset.setKw (.captured 15 0xC)))
    (fun t => t.reg vf == 0x0C && t.pc == 0x202 && t.kw == .idle) = true := by decide

/-- IM-2, IM-3. -/
theorem test_addIVx :
    nextHas (step (testState 0xF21E fun s => ((s.setI 0x0FFF).setReg 2 1).setReg vf 0x55))
      (fun t => t.i == 0x1000 && t.reg vf == 0x55) = true ∧
    nextHas (step (testState 0xF21E fun s => (s.setI 0xFFFF).setReg 2 2)) (fun t => t.i == 0x0001) = true := by decide

/-- IM-6, IM-7. -/
theorem test_ldFVx :
    nextHas (step (testState 0xF129 fun s => s.setReg 1 0x1A)) (fun t => t.i == 0x0032) = true ∧
    nextHas (step { (testState 0xF129 fun s => s.setReg 1 0x0A) with params := { defaultParams with fontBase := 0x050 } })
      (fun t => t.i == 0x0082) = true := by decide

/-- IM-11: the addresses wrap. -/
theorem test_ldBVx : nextHas (step (testState 0xF333 fun s => (s.setReg 3 0xFF).setI 0x0FFF))
    (fun t => t.readByte 0xFFF == 2 && t.readByte 0x000 == 5 && t.readByte 0x001 == 5 && t.i == 0x0FFF) = true := by decide

/-- IM-12. -/
theorem test_ldMemVx :
    nextHas (step (testState 0xF255 fun s => s.setI 0x0400 |>.setRegsFrom 0 [0x11, 0x22, 0x33, 0x44]))
      (fun t => t.readBytes 0x400 4 == [0x11, 0x22, 0x33, 0] && t.i == 0x0400) = true := by decide

/-- IM-15. -/
theorem test_ldVxMem :
    nextHas (step (testState 0xF165 fun s => (s.setI 0x0400).writeBytes 0x400 [0xAA, 0xBB, 0xCC]))
      (fun t => t.reg 0 == 0xAA && t.reg 1 == 0xBB && t.reg 2 == 0 && t.i == 0x0400) = true := by decide

/-- IM-17: I = 0x1400 reads at 0x400. -/
theorem test_ldVxMem_masks :
    nextHas (step (testState 0xF065 fun s => (s.setI 0x1400).writeBytes 0x400 [0x5A])) (fun t => t.reg 0 == 0x5A) =
      true := by decide

/-! ## Fetch, events, host -/

/-- FD2: PC = 0xFFFF fetches from 0xFFF and 0x000. -/
theorem test_fetch_wraps : nextHas (step ((State.reset.setPc 0xFFFF).withFetchWord 16 0x6199))
    (fun t => t.reg 1 == 0x99 && t.pc == 0x0001) = true := by decide

/-- RS3: the empty program faults on its first step. -/
theorem test_empty_program : faultHas (step State.reset) (fun f => f == .invalidOpcode 0 0x200 (State.reset.setPc 0x202)) =
    true := by decide

/-- RS5: the font after power-on. -/
theorem test_font : State.reset.readBytes 0 5 = [0xF0, 0x90, 0x90, 0x90, 0xF0] ∧
    State.reset.readBytes 0x4B 6 = [0xF0, 0x80, 0xF0, 0x80, 0x80, 0] := by decide

/-- TK4, TK6. -/
theorem test_tick :
    (tick ((State.reset.setDt 2).setSt 1)).dt = 1 ∧ (tick ((State.reset.setDt 2).setSt 1)).st = 0 ∧
    (tick (((State.reset.setDt 5).setSt 5).setRun false)).dt = 5 := by decide

/-- TK11, TK13, TK18. -/
theorem test_setKey :
    (setKey 5 true ((State.reset.setKw (.waiting 3)).setKeys (State.reset.keys.set 5 true))).kw = .waiting 3 ∧
    (setKey 9 true (setKey 2 true (State.reset.setKw (.waiting 3)))).kw = .captured 3 2 ∧
    (setKey 7 true State.reset).kw = .idle := by decide

/-- RS4, on a state with less changed. -/
theorem test_restart :
    (restart (((State.reset.setReg 3 9).setKw (.waiting 1)).setKeys (State.reset.keys.set 2 true))).reg 3 = 0 ∧
    (restart (State.reset.setKw (.waiting 1))).kw = .idle ∧
    (restart (State.reset.setKeys (State.reset.keys.set 2 true))).keys[2] = true ∧
    (restart ((State.reset.writeByte 0x800 0x5A).setProgram [0x12, 0x00])).readBytes 0x800 1 = [0x5A] := by decide

/-- R286: the layout names each of the 16 codes once. -/
theorem test_keyboardLayout : ∀ k : Key, (keyboardLayout.map Prod.snd).count k = 1 := by decide

/-- R293: the dump shows the live stack. -/
theorem test_dump : (State.reset.setStack [0x0202]).dump.sp = 1 ∧ State.reset.dump.pc = 0x200 := by decide

/-- R266: the host's default is to pause after a stack fault, in the state the step left. -/
theorem test_afterFault : afterFault (.stackUnderflow 0x200 State.reset) = some (State.reset.setRun false) := by decide

/-! ## Witnesses: hypotheses that can be met -/

theorem witness_DecodeOfEncode : (Instr.drw 15 0 15).wf = true ∧ encode (.drw 15 0 15) = 0xDF0F := by decide

theorem witness_EncodeOfDecode : decodeWord 0xFFFF = .error .majorF ∧ decodeWord 0xFF65 = .ok (.ldVxMem 15) := by decide

theorem witness_DecoderAgreesWithOpcodeTable :
    ⟨"SHL", 0xF00F, 0x800E⟩ ∈ opcodeRows ∧ rowMatches ⟨"SHL", 0xF00F, 0x800E⟩ 0x8ABE = true := by decide

/-- Each clause at both ends of its range. -/
theorem witness_IllegalWordsAreRejected :
    decodeWord 0x0000 = .error .major0 ∧ decodeWord 0x0FFF = .error .major0 ∧ decodeWord 0x5001 = .error .major5 ∧
    decodeWord 0x5FFF = .error .major5 ∧ decodeWord 0x8008 = .error .major8 ∧ decodeWord 0x8FFF = .error .major8 ∧
    decodeWord 0x9001 = .error .major9 ∧ decodeWord 0x9FFF = .error .major9 ∧ decodeWord 0xE000 = .error .majorE ∧
    decodeWord 0xEFFF = .error .majorE ∧ decodeWord 0xF000 = .error .majorF ∧ decodeWord 0xFFFF = .error .majorF := by decide

theorem witness_ready : State.reset.ready := by decide

theorem witness_StepRunsDecodedInstruction :
    (testState 0x6A42 id).ready ∧
    decodeBytes ([(testState 0x6A42 id).readByte (testState 0x6A42 id).pc.toNat,
      (testState 0x6A42 id).readByte ((testState 0x6A42 id).pc.toNat + 1)] ++ []) = .ok (.ldImm 10 0x42, []) := by decide

theorem witness_StepFaultsOnIllegalWord : State.reset.ready ∧ decodeWord State.reset.fetch = .error .major0 := by decide

theorem witness_PcAfterEveryStep :
    State.reset.inputs = [] ∧ State.reset.run = true ∧ (State.reset.setKw (.waiting 3)).kw = .waiting 3 ∧
    (State.reset.setKw (.captured 3 9)).kw = .captured 3 9 ∧ decodeWord (testState 0x2300 id).fetch = .ok (.call 0x300) ∧
    nextHas (step (testState 0x2300 id)) (fun _ => true) = true ∧ faultHas (step State.reset) (fun _ => true) = true := by
  decide

/-- The invariant holds of reset, where a step can fault and, with a word placed, go on. -/
theorem witness_StepKeepsInvariant : State.reset.Inv ∧ (testState 0xF333 id).Inv ∧
    nextHas (step (testState 0xF333 id)) (fun _ => true) = true ∧ faultHas (step State.reset) (fun _ => true) = true := by
  have h : ∀ s : State, s.params = defaultParams → s.stack = [] → s.mem.wf defaultParams = true → s.program = [] →
      s.slots = Vector.replicate 10 none → s.Inv := by
    intro s hp hs hm hg hl
    refine ⟨by rw [hp]; decide, ⟨by simp [State.snapshot, hs], by rw [hp]; exact hm⟩, by rw [hg]; decide, ?_⟩
    intro slot n hn
    simp [hl] at hn
  exact ⟨h _ rfl rfl rfl rfl rfl, h _ rfl rfl (by decide) rfl rfl, by decide, by decide⟩

theorem witness_PowerOnMeetsInvariant : defaultParams.wf = true ∧ powerOn defaultParams [] = .ok State.reset := by decide

theorem witness_FaultLeavesOnlyPcAdvanced :
    executorStep State.reset = .fault (.invalidOpcode 0 0x200 (State.reset.setPc 0x202)) := rfl

/-- Each of the three causes, at the bounds of the stack. -/
theorem witness_StepFaultsExactlyInThreeCases :
    State.reset.sp ≤ 16 ∧ (testState 0x2300 fun s => s.setStack (List.replicate 16 0)).sp = 16 ∧
    faultHas (executorStep State.reset) (fun _ => true) = true ∧
    faultHas (executorStep (testState 0x2300 fun s => s.setStack (List.replicate 16 0))) (fun _ => true) = true ∧
    faultHas (executorStep (testState 0x00EE id)) (fun _ => true) = true ∧
    nextHas (executorStep (testState 0x2300 fun s => s.setStack (List.replicate 15 0))) (fun _ => true) = true := by decide

/-- Every part has an instruction that changes it. -/
theorem witness_OnlyListedInstructionsWriteEachPart :
    nextHas (exec (.call 0x300) State.reset) (fun t => t.stack != State.reset.stack) = true ∧
    nextHas (exec (.ldI 1) State.reset) (fun t => t.i != State.reset.i) = true ∧
    nextHas (exec (.ldDtVx 1) (State.reset.setReg 1 1)) (fun t => t.dt != 0) = true ∧
    nextHas (exec (.ldStVx 1) (State.reset.setReg 1 1)) (fun t => t.st != 0) = true ∧
    nextHas (exec (.drw 0 0 1) State.reset) (fun t => t.fb != State.reset.fb) = true ∧
    nextHas (exec (.ldBVx 1) State.reset) (fun t => t.mem != State.reset.mem) = true ∧
    nextHas (exec (.ldVxK 1) State.reset) (fun t => t.kw != State.reset.kw) = true ∧
    nextHas (exec (.rnd 1 0) State.reset) (fun t => t.draws != 0) = true ∧
    nextHas (exec (.ldImm 15 1) State.reset) (fun t => t.reg vf != 0) = true ∧
    nextHas (exec (.ldVxMem 1) (State.reset.writeByte 1 7)) (fun t => t.reg 1 != 0) = true ∧
    nextHas (exec (.sneImm 1 1) State.reset) (fun t => t.pc != 0x200) = true := by decide

theorem witness_OnlyFlagInstructionsWriteVf :
    writesFlag (.sub 1 2) = true ∧ writesFlag (.addImm 1 2) = false ∧ destinationIsVf (.addImm 1 2) = false ∧
    nextHas (exec (.sub 1 2) State.reset) (fun t => t.reg vf == 1) = true ∧
    nextHas (exec (.addImm 1 2) State.reset) (fun t => t.reg vf == 0) = true := by decide

theorem witness_NoInstructionReadsSoundTimer : ∀ x, Instr.ldDtVx 3 ≠ .ldStVx x := by decide

theorem witness_TickCommutesWithTimerFreeInstructions :
    (∀ x, Instr.skp 3 ≠ .ldVxDt x) ∧ (∀ x, Instr.skp 3 ≠ .ldDtVx x) ∧ ∀ x, Instr.skp 3 ≠ .ldStVx x := by decide

/-- DecodesTo's hypothesis, for one row of each mask. -/
theorem witness_DecodesTo :
    (0x00E0 : Word) &&& 0xFFFF = 0x00E0 ∧ (0x1234 : Word) &&& 0xF000 = 0x1000 ∧ (0x5AB0 : Word) &&& 0xF00F = 0x5000 ∧
    (0x5AB1 : Word) &&& 0xF000 = 0x5000 ∧ (0x5AB1 : Word) &&& 0x000F ≠ 0 := by decide

theorem witness_ReturnPopsIntoPc :
    (State.reset.setStack [0x0204, 0x0310]).stack = [0x0204] ++ [0x0310] ∧ State.reset.stack = [] := by decide

theorem witness_CallPushesPcAndJumps :
    (State.reset.setStack (List.replicate 15 0)).sp < 16 ∧ (State.reset.setStack (List.replicate 16 0)).sp = 16 := by decide

theorem witness_ReturnUndoesCall : State.reset.sp < 16 ∧
    nextHas (exec (.call 0x300) State.reset) (fun t => (State.reset.setStack [0x200]).stack == t.stack) = true := by decide

theorem witness_CallsNestToDepthSixteen : State.reset.stack = [] ∧
    (List.replicate 16 ((0x202, 0x200) : Word × Addr)).length = 16 := by decide

theorem witness_SkipOnKey : (15 : Key).val = ((State.reset.setReg 4 0xFF).reg 4).toNat % 16 := by decide

theorem witness_ShiftsByOneBit :
    (State.reset.params.shiftSrc = .vx → (1 : Reg) = 1) ∧ (State.reset.params.shiftSrc = .vy → (1 : Reg) = 2) := by decide

theorem witness_ShiftsByOneBit_vy :
    ({ defaultParams with shiftSrc := .vy }.shiftSrc = .vx → (2 : Reg) = 1) ∧
    ({ defaultParams with shiftSrc := .vy }.shiftSrc = .vy → (2 : Reg) = 2) := by decide

theorem witness_AddRegistersWithCarry : (1 : Reg) ≠ vf := by decide

/-- Fifteen rows, and a 1 bit of one of them on the screen. -/
theorem witness_BlitTogglesExactlySpritePixels :
    (List.replicate 15 (0x80 : Byte)).length ≤ 15 ∧ spriteCovers (List.replicate 15 0x80) 63 31 13 63 :=
  ⟨by decide, 14, 0, by decide, by decide, by decide, by decide, by decide⟩

theorem witness_TickCountsDown : (State.reset.setInputs [.tick]).inputs = .tick :: [] ∧
    nextHas (step ((State.reset.setInputs [.tick]).setDt 1)) (fun t => t.dt == 0) = true := by decide

theorem witness_KeyWaitBegins : (testState 0xF30A id).ready ∧ decodeWord (testState 0xF30A id).fetch = .ok (.ldVxK 3) := by
  decide

/-- Both clauses: a waiting and a captured latch. -/
theorem witness_KeyWaitHoldsAndCompletes :
    (State.reset.setKw (.waiting 3)).inputs = [] ∧ (State.reset.setKw (.waiting 3)).run = true ∧
    (State.reset.setKw (.waiting 3)).kw = .waiting 3 ∧ (State.reset.setKw (.captured 3 15)).kw = .captured 3 15 := by decide

/-- The capturing press, and the three ways the latch is left alone. -/
theorem witness_SetKeyAndCapture :
    ((State.reset.setKw (.waiting 3)).setInputs [.setKey 15 true]).inputs = .setKey 15 true :: [] ∧
    (State.reset.setKw (.waiting 3)).keys[15] = false ∧ (State.reset.setInputs [.setKey 0 false]).inputs = .setKey 0 false :: [] ∧
    (State.reset.keys.set 15 true)[15] = true ∧ ∀ x, State.reset.kw ≠ .waiting x := by decide

theorem witness_FirstPressEndsKeyWait : (State.reset.setKw (.waiting 3)).kw = .waiting 3 ∧
    (State.reset.setKw (.waiting 3)).keys[2] = false ∧ (State.reset.setKw (.waiting 3)).run = true := by decide

/-- With a program loaded, the font at both ends of its allowed places and entries next to it. -/
theorem witness_FontAddressFindsGlyph :
    (testState 0xF129 id).params.wf = true ∧ (testState 0xF129 id).mem ≠ [] ∧
    (∀ c ∈ (testState 0xF129 id).mem,
      c.1 < (testState 0xF129 id).params.fontBase.toNat ∨ (testState 0xF129 id).params.fontBase.toNat + 80 ≤ c.1) ∧
    Params.wf { defaultParams with fontBase := 0x1B0 } = true ∧ (0x1AF < 0x1B0 ∨ 0x1B0 + 80 ≤ 0x1AF) ∧
    (0x200 < 0x1B0 ∨ 0x1B0 + 80 ≤ 0x200) := by decide

/-- The dumping state's memory, with other registers. -/
theorem witness_DumpThenLoadRestores :
    nextHas (exec (.ldMemVx 15) (State.reset.setReg 3 9)) (fun _ => true) = true ∧
    ∃ u : State, u.v = State.reset.v ∧ ∀ t, exec (.ldMemVx 15) (State.reset.setReg 3 9) = .next t →
      u.mem = t.mem ∧ u.params = t.params ∧ u.i = t.i := by
  refine ⟨by decide, ?_⟩
  cases h : exec (.ldMemVx 15) (State.reset.setReg 3 9) with
  | next t => exact ⟨{ t with v := State.reset.v }, rfl, fun t' h' => by cases h'; exact ⟨rfl, rfl, rfl⟩⟩
  | fault f => exact ⟨State.reset, rfl, fun _ h' => nomatch h'⟩
  | refused r => exact ⟨State.reset, rfl, fun _ h' => nomatch h'⟩

/-- The clauses over one address meet at 0x200, at the font's end and at the top of memory. -/
theorem witness_PowerOnLoadsProgram : defaultParams.wf = true ∧ ([0x12, 0x00] : List Byte).length ≤ 0xE00 ∧
    0xE00 < (List.replicate 0xE01 (0 : Byte)).length ∧
    (match powerOn defaultParams [0x12, 0x00] with
      | .ok s => s.readByte 0x1FF == 0 && s.readByte 0x200 == 0x12 && s.readByte 0x202 == 0 && s.readByte 79 == 0x80 &&
          s.readByte 80 == 0 && s.readByte 0xFFF == 0
      | .error _ => false) = true :=
  ⟨by decide, by decide, by rw [List.length_replicate]; decide, by decide⟩

theorem witness_RestartReloadsAndResets : (State.reset.setInputs [.restart]).inputs = .restart :: [] ∧
    programWf (State.reset.setInputs [.restart]).program = true := by decide

/-- Each clause with its command queued, at both sides of the length bound. -/
theorem witness_RejectedHostCommandsChangeNothing :
    0xE00 < (List.replicate 0xE01 (0 : Byte)).length ∧ (List.replicate 0xE00 (0 : Byte)).length ≤ 0xE00 ∧
    (State.reset.setInputs [.loadProgram (List.replicate 0xE01 0)]).inputs =
      .loadProgram (List.replicate 0xE01 0) :: [] ∧
    (State.reset.setInputs [.loadProgram (List.replicate 0xE00 0)]).inputs =
      .loadProgram (List.replicate 0xE00 0) :: [] ∧
    State.reset.slots[9] = none ∧ (State.reset.setInputs [.loadState 9]).inputs = .loadState 9 :: [] :=
  ⟨by rw [List.length_replicate]; decide, by rw [List.length_replicate], rfl, rfl, by decide, by decide⟩

/-- R324 by the event: the bytes are at 0x200, and the registers are not reset (log 30). -/
theorem test_loadProgram : nextHas (step (((State.reset.setReg 3 9).setPc 0x300).setInputs [.loadProgram [0x12, 0x34]]))
    (fun t => t.readBytes 0x200 3 == [0x12, 0x34, 0] && t.program == [0x12, 0x34] && t.reg 3 == 9 && t.pc == 0x300) = true := by
  decide

theorem witness_SaveThenLoadReproduces : Event.saveState 2 ∉ [Event.tick, .setKey 1 true, .saveState 3] ∧
    nextHas (runEvents (.saveState 2 :: [Event.tick, .setKey 1 true, .saveState 3]) State.reset) (fun t => t.keys[1]) =
      true := by decide

/-- Running and Paused. -/
theorem witness_PauseGatesSteps : State.reset.run = true ∧ (pause State.reset).run = false ∧
    nextHas (executorStep (pause (testState 0x6A42 id))) (fun t => !t.run) = true := by decide

/-- Both policies. -/
theorem witness_InvalidOpcodePolicies : State.reset.ready ∧ decodeWord State.reset.fetch = .error .major0 ∧
    State.reset.params.invalidOpcodePolicy = .halt ∧
    drive { State.reset with params := { defaultParams with invalidOpcodePolicy := .skip } } =
      some ({ State.reset with params := { defaultParams with invalidOpcodePolicy := .skip } }.setPc 0x202) := by decide

/-- A stack of 16 entries with a call fetched, and an empty one with a return. -/
theorem witness_InvalidOpcodePolicies_stack :
    (testState 0x2300 fun s => s.setStack (List.replicate 16 0)).ready ∧
    decodeWord (testState 0x2300 fun s => s.setStack (List.replicate 16 0)).fetch = .ok (.call 0x300) ∧
    (testState 0x2300 fun s => s.setStack (List.replicate 16 0)).sp = 16 ∧
    (testState 0x00EE id).ready ∧ decodeWord (testState 0x00EE id).fetch = .ok .ret ∧ (testState 0x00EE id).sp = 0 ∧
    (testState 0x00EE id).params.autoPauseOnFault = true ∧
    { defaultParams with autoPauseOnFault := false }.autoPauseOnFault = false := by decide

theorem witness_PlacedWordRunsNext : decodeTableWord 16 0x6A42 = some (.ldImm 10 0x42) := by decide

theorem witness_TimersDecayToZero : State.reset.run = true := by decide

/-- The premises of each clause of the illegal words, at the ends of its range. -/
theorem witness_IllegalWordsAreRejected_premises :
    (0x0FFF : Word).toNat < 0x1000 ∧ (0x0FFF : Word) ≠ 0x00E0 ∧ (0x0FFF : Word) ≠ 0x00EE ∧
    (0x5001 : Word).toNat / 4096 = 0x5 ∧ (0x5001 : Word).toNat % 16 ≠ 0 ∧
    (0x800F : Word).toNat / 4096 = 0x8 ∧ (0x800F : Word).toNat % 16 ∈ [0x8, 0x9, 0xA, 0xB, 0xC, 0xD, 0xF] ∧
    (0x9FFF : Word).toNat / 4096 = 0x9 ∧ (0x9FFF : Word).toNat % 16 ≠ 0 ∧
    (0xE0A0 : Word).toNat / 4096 = 0xE ∧ (0xE0A0 : Word).toNat % 256 ∉ [0x9E, 0xA1] ∧ (0xF066 : Word).toNat / 4096 = 0xF := by
  decide

theorem witness_SkipOnRegisters : (0x9AB1 : Word) &&& 0xF000 = 0x9000 ∧ (0x9AB1 : Word) &&& 0x000F ≠ 0 := by decide

theorem witness_BlitTwiceRestores : (List.replicate 15 (0xFF : Byte)).length ≤ 15 := by decide

/-- The last register of the range, and the first outside it. -/
theorem witness_DumpRegisters : (7 : Reg) ≤ 7 ∧ ¬ (8 : Reg) ≤ 7 ∧ maskAddr (0x0FFF + 7) = 6 ∧
    6 ∈ maskedRange 0x0FFF 8 ∧ 7 ∉ maskedRange 0x0FFF 8 := by decide

theorem witness_LoadRegisters : (15 : Reg) ≤ 15 ∧ (8 : Reg) ∉ (List.finRange 16).filter (fun r => r ≤ (7 : Reg)) := by decide

theorem witness_RandomByteIsMasked : (0x0F : Byte).getLsbD 4 = false ∧ (0x0F : Byte).getLsbD 3 = true := by decide

end Sys2Proof.Tests
end

section
/-! The fetched word by its two bytes (30_encoding.md R91). -/

namespace Sys2Proof.Machine

/-- An address matters only by its low 12 bits (R61). -/
@[simp] theorem State.readByte_mod (s : State) (a : Nat) : s.readByte (a % 4096) = s.readByte a := by
  simp [State.readByte, maskAddr]

theorem State.fetch_toNat (s : State) :
    s.fetch.toNat = (s.readByte s.pc.toNat).toNat * 256 + (s.readByte (s.pc.toNat + 1)).toNat :=
  joinBytes_toNat _ _

/-- Settles O8: the fetched word as a number has its two bytes as the digits of base 256, and a read masks its own address. -/
theorem fetchIsBigEndian : Obligations.FetchIsBigEndian := by
  intro s
  rw [State.readByte_mod, State.readByte_mod, State.fetch_toNat]
  have hlo := (s.readByte (s.pc.toNat + 1)).isLt
  constructor <;> omega

end Sys2Proof.Machine
end

section
/-! CLS (40_display_return.md R120). -/

namespace Sys2Proof.Machine

/-- A row whose mask looks at every bit matches its pattern alone (R97). -/
theorem decodesTo_fullMask {p : Word} {i : Instr} (h : decodeWord p = .ok i) : DecodesTo 0xFFFF p (fun _ => i) := by
  intro w hw
  rw [show (0xFFFF : Word) = BitVec.allOnes 16 by decide, BitVec.and_allOnes] at hw
  rw [hw, h]

theorem exec_cls (s : State) : exec .cls s = .next (s.setFb clearFb) := rfl

/-- Settles O19: CLS answers the state with the cleared buffer, whose pixels are dark and whose frame is that of `setFb`. -/
theorem clearDisplayDarkensEveryPixel : Obligations.ClearDisplayDarkensEveryPixel := by
  constructor
  · exact decodesTo_fullMask (by decide)
  · intro s
    exact ⟨s.setFb clearFb, exec_cls s, pixel_clearFb, Unchanged.setFb s clearFb⟩

end Sys2Proof.Machine
end

section
/-! JP (41_jump_call.md R130). -/

namespace Sys2Proof.Machine

/-- A row whose mask looks at the major opcode alone matches every word with that major opcode (R97). -/
theorem decodesTo_majorMask {op : Nibble} {f : Word → Instr} (h : ∀ w, opField w = op → decodeWord w = .ok (f w)) :
    DecodesTo 0xF000 (formatA op 0) f :=
  fun w hw => h w ((and_F000_eq w op).1 hw)

theorem decodeWord_major1 {w : Word} (h : opField w = 0x1) : decodeWord w = .ok (.jp (nnnField w)) := by
  simp [decodeWord, h]

/-- Zero extension keeps the number, so a jump reaches every NNN as it is written (R94). -/
@[simp] theorem zextAddr_toNat (nnn : Addr) : (zextAddr nnn).toNat = nnn.toNat :=
  BitVec.toNat_setWidth_of_le (by decide)

theorem exec_jp (nnn : Addr) (s : State) : exec (.jp nnn) s = .next (s.setPc (zextAddr nnn)) := rfl

/-- Settles O21: major opcode 1 decodes to JP with the word's NNN, and JP answers the state with that PC, whose frame is
that of `setPc`. -/
theorem jumpSetsPc : Obligations.JumpSetsPc := by
  constructor
  · exact decodesTo_majorMask (op := 0x1) fun _ => decodeWord_major1
  · intro s nnn
    exact ⟨s.setPc (zextAddr nnn), exec_jp nnn s, zextAddr_toNat nnn, Unchanged.setPc s (zextAddr nnn)⟩

end Sys2Proof.Machine
end

section
/-! The skips on an immediate, SE and SNE (42_skip.md R140, R141). -/

namespace Sys2Proof.Machine

theorem decodeWord_major3 {w : Word} (h : opField w = 0x3) : decodeWord w = .ok (.seImm (xField w) (nnField w)) := by
  simp [decodeWord, h]

theorem decodeWord_major4 {w : Word} (h : opField w = 0x4) : decodeWord w = .ok (.sneImm (xField w) (nnField w)) := by
  simp [decodeWord, h]

@[simp] theorem State.skipIf_pc (s : State) (c : Bool) : (s.skipIf c).pc = if c then s.pc + 2 else s.pc := by
  rw [State.skipIf_eq_setPc, State.setPc_pc]

/-- A skip, taken or not, has the frame of `setPc` (R144). -/
theorem Unchanged.skipIf (s : State) (c : Bool) : Unchanged { parts := [.pc] } s (s.skipIf c) := by
  rw [State.skipIf_eq_setPc]
  exact Unchanged.setPc s _

theorem exec_seImm (x : Reg) (nn : Byte) (s : State) : exec (.seImm x nn) s = .next (s.skipIf (s.reg x == nn)) := rfl

theorem exec_sneImm (x : Reg) (nn : Byte) (s : State) : exec (.sneImm x nn) s = .next (s.skipIf (s.reg x != nn)) := rfl

/-- Settles O25: major opcodes 3 and 4 decode to SE and SNE with the word's X and NN, and each answers a conditional skip,
on equality and on its negation, so the two branches for the PC stand in opposite order. -/
theorem skipOnImmediate : Obligations.SkipOnImmediate := by
  refine ⟨decodesTo_majorMask (op := 0x3) fun _ => decodeWord_major3,
    decodesTo_majorMask (op := 0x4) fun _ => decodeWord_major4, fun s x nn => ⟨?_, ?_⟩⟩
  · exact ⟨s.skipIf (s.reg x == nn), exec_seImm x nn s, by simp, Unchanged.skipIf s _⟩
  · exact ⟨s.skipIf (s.reg x != nn), exec_sneImm x nn s, by simp, Unchanged.skipIf s _⟩

end Sys2Proof.Machine
end

section
/-! The immediates, LD and ADD (43_immediate.md R150, R151). -/

namespace Sys2Proof.Machine

theorem decodeWord_major6 {w : Word} (h : opField w = 0x6) : decodeWord w = .ok (.ldImm (xField w) (nnField w)) := by
  simp [decodeWord, h]

theorem decodeWord_major7 {w : Word} (h : opField w = 0x7) : decodeWord w = .ok (.addImm (xField w) (nnField w)) := by
  simp [decodeWord, h]

theorem State.reg_setReg_same (s : State) (x : Reg) (b : Byte) : (s.setReg x b).reg x = b := by
  rw [State.reg_setReg, if_pos rfl]

theorem exec_ldImm (x : Reg) (nn : Byte) (s : State) : exec (.ldImm x nn) s = .next (s.setReg x nn) := rfl

theorem exec_addImm (x : Reg) (nn : Byte) (s : State) : exec (.addImm x nn) s = .next (s.setReg x (s.reg x + nn)) := rfl

/-- Settles O28: major opcodes 6 and 7 decode to LD and ADD with the word's X and NN, and each answers one write to VX, whose
frame is that of `setReg`; byte addition is addition modulo 256, and its carry goes nowhere. -/
theorem loadAndAddImmediate : Obligations.LoadAndAddImmediate := by
  refine ⟨decodesTo_majorMask (op := 0x6) fun _ => decodeWord_major6,
    decodesTo_majorMask (op := 0x7) fun _ => decodeWord_major7, fun s x nn => ⟨?_, ?_⟩⟩
  · exact ⟨s.setReg x nn, exec_ldImm x nn s, State.reg_setReg_same s x nn, Unchanged.setReg s x nn⟩
  · have hsum : ((s.setReg x (s.reg x + nn)).reg x).toNat = ((s.reg x).toNat + nn.toNat) % 256 := by
      rw [State.reg_setReg_same, BitVec.toNat_add]
    exact ⟨s.setReg x (s.reg x + nn), exec_addImm x nn s, hsum, Unchanged.setReg s x (s.reg x + nn)⟩

end Sys2Proof.Machine
end

section
/-! The load of the index register, LD I (45_index_jump_random.md R180). -/

namespace Sys2Proof.Machine

theorem decodeWord_majorA {w : Word} (h : opField w = 0xA) : decodeWord w = .ok (.ldI (nnnField w)) := by
  simp [decodeWord, h]

theorem exec_ldI (nnn : Addr) (s : State) : exec (.ldI nnn) s = .next (s.setI (zextAddr nnn)) := rfl

/-- Settles O33: major opcode 0xA decodes to LD I with the word's NNN, and LD I answers the state with NNN, zero-extended, in
I; no address is refused, and the frame is that of `setI`. -/
theorem loadIndex : Obligations.LoadIndex := by
  refine ⟨decodesTo_majorMask (op := 0xA) fun _ => decodeWord_majorA, fun s nnn => ?_⟩
  have hi : (s.setI (zextAddr nnn)).i.toNat = nnn.toNat := by rw [State.setI_i, zextAddr_toNat]
  exact ⟨s.setI (zextAddr nnn), exec_ldI nnn s, hi, Unchanged.setI s (zextAddr nnn)⟩

end Sys2Proof.Machine
end

section
/-! The decoder, major opcode by major opcode (30_encoding.md R97, R101), and its two round trips with the encoder. -/

namespace Sys2Proof

/-! ## One equation per major opcode -/

section majors
variable {w : Word}

theorem decodeWord_major0 (h : opField w = 0x0) : decodeWord w = decodeMajor0 w := by simp [decodeWord, h]

theorem decodeWord_major2 (h : opField w = 0x2) : decodeWord w = .ok (.call (nnnField w)) := by simp [decodeWord, h]

theorem decodeWord_major5 (h : opField w = 0x5) :
    decodeWord w = if nField w = 0x0 then .ok (.seReg (xField w) (yField w)) else .error .major5 := by
  simp [decodeWord, h]

theorem decodeWord_major8 (h : opField w = 0x8) : decodeWord w = decodeMajor8 (xField w) (yField w) (nField w) := by
  simp [decodeWord, h]

theorem decodeWord_major9 (h : opField w = 0x9) :
    decodeWord w = if nField w = 0x0 then .ok (.sneReg (xField w) (yField w)) else .error .major9 := by
  simp [decodeWord, h]

theorem decodeWord_majorB (h : opField w = 0xB) : decodeWord w = .ok (.jpV0 (nnnField w)) := by simp [decodeWord, h]

theorem decodeWord_majorC (h : opField w = 0xC) : decodeWord w = .ok (.rnd (xField w) (nnField w)) := by
  simp [decodeWord, h]

theorem decodeWord_majorD (h : opField w = 0xD) : decodeWord w = .ok (.drw (xField w) (yField w) (nField w)) := by
  simp [decodeWord, h]

theorem decodeWord_majorE (h : opField w = 0xE) : decodeWord w = decodeMajorE (xField w) (nnField w) := by
  simp [decodeWord, h]

theorem decodeWord_majorF (h : opField w = 0xF) : decodeWord w = decodeMajorF (xField w) (nnField w) := by
  simp [decodeWord, h]

end majors

/-! ## Encoding what was decoded -/

section
variable {x y : Reg} {i : Instr}

theorem encode_of_decodeMajor0 {w : Word} (h : decodeMajor0 w = .ok i) : encode i = w := by
  unfold decodeMajor0 at h
  split_ifs at h with h₁ h₂ <;> cases h
  · exact h₁.symm
  · exact h₂.symm

theorem encode_of_decodeMajor8 {n : Nibble} (h : decodeMajor8 x y n = .ok i) : encode i = formatR 0x8 x y n := by
  unfold decodeMajor8 at h
  split_ifs at h <;> cases h <;> subst n <;> rfl

theorem encode_of_decodeMajorE {nn : Byte} (h : decodeMajorE x nn = .ok i) : encode i = formatI 0xE x nn := by
  unfold decodeMajorE at h
  split_ifs at h <;> cases h <;> subst nn <;> rfl

theorem encode_of_decodeMajorF {nn : Byte} (h : decodeMajorF x nn = .ok i) : encode i = formatI 0xF x nn := by
  unfold decodeMajorF at h
  split_ifs at h <;> cases h <;> subst nn <;> rfl

end

/-- The sixteen major opcodes. -/
theorem opField_cases (w : Word) :
    (opField w = 0x0 ∨ opField w = 0x1 ∨ opField w = 0x2 ∨ opField w = 0x3) ∨
    (opField w = 0x4 ∨ opField w = 0x5 ∨ opField w = 0x6 ∨ opField w = 0x7) ∨
    (opField w = 0x8 ∨ opField w = 0x9 ∨ opField w = 0xA ∨ opField w = 0xB) ∨
    (opField w = 0xC ∨ opField w = 0xD ∨ opField w = 0xE ∨ opField w = 0xF) := by
  generalize opField w = n
  revert n
  decide

section
variable {w : Word} {op : Nibble} (h : opField w = op)
include h

theorem formatA_of_opField : formatA op (nnnField w) = w := h ▸ formatA_fields w

theorem formatI_of_opField : formatI op (xField w) (nnField w) = w := h ▸ formatI_fields w

theorem formatR_of_opField : formatR op (xField w) (yField w) (nField w) = w := h ▸ formatR_fields w

end

open Sys2Proof.Machine in
/-- Decoding forgets nothing: the word is put together again from its major opcode and the fields its instruction keeps. -/
theorem encode_of_decodeWord {w : Word} {i : Instr} (h : decodeWord w = .ok i) : encode i = w := by
  obtain (ho | ho | ho | ho) | (ho | ho | ho | ho) | (ho | ho | ho | ho) | (ho | ho | ho | ho) := opField_cases w
  · exact encode_of_decodeMajor0 ((decodeWord_major0 ho).symm.trans h)
  · cases (decodeWord_major1 ho).symm.trans h; exact formatA_of_opField ho
  · cases (decodeWord_major2 ho).symm.trans h; exact formatA_of_opField ho
  · cases (decodeWord_major3 ho).symm.trans h; exact formatI_of_opField ho
  · cases (decodeWord_major4 ho).symm.trans h; exact formatI_of_opField ho
  · rw [decodeWord_major5 ho] at h
    split at h <;> rename_i hn <;> cases h
    rw [encode, ← hn, formatR_of_opField ho]
  · cases (decodeWord_major6 ho).symm.trans h; exact formatI_of_opField ho
  · cases (decodeWord_major7 ho).symm.trans h; exact formatI_of_opField ho
  · rw [encode_of_decodeMajor8 ((decodeWord_major8 ho).symm.trans h), formatR_of_opField ho]
  · rw [decodeWord_major9 ho] at h
    split at h <;> rename_i hn <;> cases h
    rw [encode, ← hn, formatR_of_opField ho]
  · cases (decodeWord_majorA ho).symm.trans h; exact formatA_of_opField ho
  · cases (decodeWord_majorB ho).symm.trans h; exact formatA_of_opField ho
  · cases (decodeWord_majorC ho).symm.trans h; exact formatI_of_opField ho
  · cases (decodeWord_majorD ho).symm.trans h; exact formatR_of_opField ho
  · rw [encode_of_decodeMajorE ((decodeWord_majorE ho).symm.trans h), formatI_of_opField ho]
  · rw [encode_of_decodeMajorF ((decodeWord_majorF ho).symm.trans h), formatI_of_opField ho]

/-- Settles O2: `encode_of_decodeWord`, a case per major opcode. -/
theorem encodeOfDecode : Obligations.EncodeOfDecode := fun _ _ => encode_of_decodeWord

/-! ## Decoding what was encoded -/

open Sys2Proof.Machine in
/-- The fields of each layout are the ones it was built from, so every row's word takes its own branch of the decoder. -/
theorem decodeWord_encode (i : Instr) : decodeWord (encode i) = .ok i := by
  cases i with
  | cls | ret => rfl
  | jp nnn => simp [encode, decodeWord_major1]
  | call nnn => simp [encode, decodeWord_major2]
  | seImm x nn => simp [encode, decodeWord_major3]
  | sneImm x nn => simp [encode, decodeWord_major4]
  | seReg x y => simp [encode, decodeWord_major5]
  | ldImm x nn => simp [encode, decodeWord_major6]
  | addImm x nn => simp [encode, decodeWord_major7]
  | ldReg x y | orReg x y | andReg x y | xorReg x y | addReg x y | sub x y | shr x y | subn x y | shl x y =>
    simp [encode, decodeWord_major8, decodeMajor8]
  | sneReg x y => simp [encode, decodeWord_major9]
  | ldI nnn => simp [encode, decodeWord_majorA]
  | jpV0 nnn => simp [encode, decodeWord_majorB]
  | rnd x nn => simp [encode, decodeWord_majorC]
  | drw x y n => simp [encode, decodeWord_majorD]
  | skp x | sknp x => simp [encode, decodeWord_majorE, decodeMajorE]
  | ldVxDt x | ldVxK x | ldDtVx x | ldStVx x | addIVx x | ldFVx x | ldBVx x | ldMemVx x | ldVxMem x =>
    simp [encode, decodeWord_majorF, decodeMajorF]

/-- Two bytes at the head of a sequence decode as the word they join to. -/
theorem decodeBytes_cons_cons (hi lo : Byte) (rest : List Byte) :
    decodeBytes (hi :: lo :: rest) = (decodeWord (joinBytes hi lo)).map (fun i => (i, rest)) := by
  rw [decodeBytes]
  cases decodeWord (joinBytes hi lo) <;> rfl

theorem decodeBytes_wordBytes (w : Word) (rest : List Byte) :
    decodeBytes (wordBytes w ++ rest) = (decodeWord w).map (fun i => (i, rest)) := by
  obtain ⟨hi, lo, hb, hw⟩ := joinBytes_wordBytes w
  rw [hb, List.cons_append, List.cons_append, List.nil_append, decodeBytes_cons_cons, hw]

/-- Settles O1: `decodeWord_encode`, a case per instruction, carried over to the two bytes of the word. -/
theorem decodeOfEncode : Obligations.DecodeOfEncode := by
  intro i _
  refine ⟨decodeWord_encode i, fun rest => ?_⟩
  rw [encodeBytes, decodeBytes_wordBytes, decodeWord_encode]
  rfl

end Sys2Proof
end

section
/-! The decoder against the opcode table and against the map of illegal words (30_encoding.md R97, R100, R104). -/

namespace Sys2Proof

open Sys2Proof.Machine

/-! ## The rows of the table -/

/-- A row that looks at the major opcode and the low nibble (R97). -/
theorem decodesTo_nibbleMask {op n : Nibble} {f : Word → Instr}
    (h : ∀ w, opField w = op → nField w = n → decodeWord w = .ok (f w)) : DecodesTo 0xF00F (formatR op 0 0 n) f := by
  intro w hw
  obtain ⟨ho, hn⟩ := (and_F00F_eq w op n).1 hw
  exact h w ho hn

/-- A row that looks at the major opcode and the low byte (R97). -/
theorem decodesTo_byteMask {op : Nibble} {nn : Byte} {f : Word → Instr}
    (h : ∀ w, opField w = op → nnField w = nn → decodeWord w = .ok (f w)) : DecodesTo 0xF0FF (formatI op 0 nn) f := by
  intro w hw
  obtain ⟨ho, hn⟩ := (and_F0FF_eq w op nn).1 hw
  exact h w ho hn

/-- Major opcode 8, one row per low nibble. -/
theorem decodesTo_major8 {n : Nibble} {f : Reg → Reg → Instr} (h : ∀ x y, decodeMajor8 x y n = .ok (f x y)) :
    DecodesTo 0xF00F (formatR 0x8 0 0 n) (fun w => f (xField w) (yField w)) :=
  decodesTo_nibbleMask fun w ho hn => by rw [decodeWord_major8 ho, hn, h]

/-- Major opcode E, one row per low byte. -/
theorem decodesTo_majorE {nn : Byte} {f : Reg → Instr} (h : ∀ x, decodeMajorE x nn = .ok (f x)) :
    DecodesTo 0xF0FF (formatI 0xE 0 nn) (fun w => f (xField w)) :=
  decodesTo_byteMask fun w ho hn => by rw [decodeWord_majorE ho, hn, h]

/-- Major opcode F, one row per low byte. -/
theorem decodesTo_majorF {nn : Byte} {f : Reg → Instr} (h : ∀ x, decodeMajorF x nn = .ok (f x)) :
    DecodesTo 0xF0FF (formatI 0xF 0 nn) (fun w => f (xField w)) :=
  decodesTo_byteMask fun w ho hn => by rw [decodeWord_majorF ho, hn, h]

theorem decodesTo_seReg : DecodesTo 0xF00F 0x5000 (fun w => .seReg (xField w) (yField w)) :=
  decodesTo_nibbleMask (op := 0x5) (n := 0x0) fun w ho hn => by rw [decodeWord_major5 ho, if_pos hn]

theorem decodesTo_sneReg : DecodesTo 0xF00F 0x9000 (fun w => .sneReg (xField w) (yField w)) :=
  decodesTo_nibbleMask (op := 0x9) (n := 0x0) fun w ho hn => by rw [decodeWord_major9 ho, if_pos hn]

/-- A row of R100 stands for one instruction: every word it matches decodes to one with the row's mnemonic. -/
def RowDecodes (r : OpcodeRow) : Prop :=
  ∃ f : Word → Instr, DecodesTo r.mask r.pattern f ∧ ∀ w, (f w).mnemonic = r.mnemonic

/-- Every row of R100, in the table's order. -/
theorem rowDecodes_of_mem : ∀ r ∈ opcodeRows, RowDecodes r := by
  simp only [opcodeRows, List.forall_mem_append, List.forall_mem_cons, List.not_mem_nil, false_imp_iff, implies_true,
    and_true]
  refine ⟨⟨⟨⟨?_, ?_⟩, ?_⟩, ?_⟩, ?_⟩
  · exact ⟨⟨_, decodesTo_fullMask (i := .cls) rfl, fun _ => rfl⟩,
      ⟨_, decodesTo_fullMask (i := .ret) rfl, fun _ => rfl⟩,
      ⟨_, decodesTo_majorMask (op := 0x1) fun _ => decodeWord_major1, fun _ => rfl⟩,
      ⟨_, decodesTo_majorMask (op := 0x2) fun _ => decodeWord_major2, fun _ => rfl⟩⟩
  · exact ⟨⟨_, decodesTo_majorMask (op := 0x3) fun _ => decodeWord_major3, fun _ => rfl⟩,
      ⟨_, decodesTo_majorMask (op := 0x4) fun _ => decodeWord_major4, fun _ => rfl⟩,
      ⟨_, decodesTo_seReg, fun _ => rfl⟩,
      ⟨_, decodesTo_majorMask (op := 0x6) fun _ => decodeWord_major6, fun _ => rfl⟩,
      ⟨_, decodesTo_majorMask (op := 0x7) fun _ => decodeWord_major7, fun _ => rfl⟩⟩
  · exact ⟨⟨_, decodesTo_major8 (n := 0x0) (f := .ldReg) fun _ _ => rfl, fun _ => rfl⟩,
      ⟨_, decodesTo_major8 (n := 0x1) (f := .orReg) fun _ _ => rfl, fun _ => rfl⟩,
      ⟨_, decodesTo_major8 (n := 0x2) (f := .andReg) fun _ _ => rfl, fun _ => rfl⟩,
      ⟨_, decodesTo_major8 (n := 0x3) (f := .xorReg) fun _ _ => rfl, fun _ => rfl⟩,
      ⟨_, decodesTo_major8 (n := 0x4) (f := .addReg) fun _ _ => rfl, fun _ => rfl⟩,
      ⟨_, decodesTo_major8 (n := 0x5) (f := .sub) fun _ _ => rfl, fun _ => rfl⟩,
      ⟨_, decodesTo_major8 (n := 0x6) (f := .shr) fun _ _ => rfl, fun _ => rfl⟩,
      ⟨_, decodesTo_major8 (n := 0x7) (f := .subn) fun _ _ => rfl, fun _ => rfl⟩,
      ⟨_, decodesTo_major8 (n := 0xE) (f := .shl) fun _ _ => rfl, fun _ => rfl⟩⟩
  · exact ⟨⟨_, decodesTo_sneReg, fun _ => rfl⟩,
      ⟨_, decodesTo_majorMask (op := 0xA) fun _ => decodeWord_majorA, fun _ => rfl⟩,
      ⟨_, decodesTo_majorMask (op := 0xB) fun _ => decodeWord_majorB, fun _ => rfl⟩,
      ⟨_, decodesTo_majorMask (op := 0xC) fun _ => decodeWord_majorC, fun _ => rfl⟩,
      ⟨_, decodesTo_majorMask (op := 0xD) fun _ => decodeWord_majorD, fun _ => rfl⟩,
      ⟨_, decodesTo_majorE (nn := 0x9E) (f := .skp) fun _ => rfl, fun _ => rfl⟩,
      ⟨_, decodesTo_majorE (nn := 0xA1) (f := .sknp) fun _ => rfl, fun _ => rfl⟩⟩
  · exact ⟨⟨_, decodesTo_majorF (nn := 0x07) (f := .ldVxDt) fun _ => rfl, fun _ => rfl⟩,
      ⟨_, decodesTo_majorF (nn := 0x0A) (f := .ldVxK) fun _ => rfl, fun _ => rfl⟩,
      ⟨_, decodesTo_majorF (nn := 0x15) (f := .ldDtVx) fun _ => rfl, fun _ => rfl⟩,
      ⟨_, decodesTo_majorF (nn := 0x18) (f := .ldStVx) fun _ => rfl, fun _ => rfl⟩,
      ⟨_, decodesTo_majorF (nn := 0x1E) (f := .addIVx) fun _ => rfl, fun _ => rfl⟩,
      ⟨_, decodesTo_majorF (nn := 0x29) (f := .ldFVx) fun _ => rfl, fun _ => rfl⟩,
      ⟨_, decodesTo_majorF (nn := 0x33) (f := .ldBVx) fun _ => rfl, fun _ => rfl⟩,
      ⟨_, decodesTo_majorF (nn := 0x55) (f := .ldMemVx) fun _ => rfl, fun _ => rfl⟩,
      ⟨_, decodesTo_majorF (nn := 0x65) (f := .ldVxMem) fun _ => rfl, fun _ => rfl⟩⟩

theorem opcodeRows_mnemonics_nodup : (opcodeRows.map OpcodeRow.mnemonic).Nodup := by decide

theorem exists_decodeWord_of_rowMatches {r : OpcodeRow} (hr : r ∈ opcodeRows) {w : Word} (h : rowMatches r w = true) :
    ∃ i, decodeWord w = .ok i ∧ i.mnemonic = r.mnemonic := by
  obtain ⟨f, hf, hm⟩ := rowDecodes_of_mem r hr
  exact ⟨f w, hf w (beq_iff_eq.1 h), hm w⟩

/-- The fixed digits of every instruction are those of its own row. -/
theorem fixedBits (i : Instr) : Laws.FixedBits.Statement i := by
  cases i with
  | cls => exact Laws.FixedBits.cls
  | ret => exact Laws.FixedBits.ret
  | jp nnn => exact Laws.FixedBits.jp nnn
  | call nnn => exact Laws.FixedBits.call nnn
  | seImm x nn => exact Laws.FixedBits.seImm x nn
  | sneImm x nn => exact Laws.FixedBits.sneImm x nn
  | seReg x y => exact Laws.FixedBits.seReg x y
  | ldImm x nn => exact Laws.FixedBits.ldImm x nn
  | addImm x nn => exact Laws.FixedBits.addImm x nn
  | ldReg x y => exact Laws.FixedBits.ldReg x y
  | orReg x y => exact Laws.FixedBits.orReg x y
  | andReg x y => exact Laws.FixedBits.andReg x y
  | xorReg x y => exact Laws.FixedBits.xorReg x y
  | addReg x y => exact Laws.FixedBits.addReg x y
  | sub x y => exact Laws.FixedBits.sub x y
  | shr x y => exact Laws.FixedBits.shr x y
  | subn x y => exact Laws.FixedBits.subn x y
  | shl x y => exact Laws.FixedBits.shl x y
  | sneReg x y => exact Laws.FixedBits.sneReg x y
  | ldI nnn => exact Laws.FixedBits.ldI nnn
  | jpV0 nnn => exact Laws.FixedBits.jpV0 nnn
  | rnd x nn => exact Laws.FixedBits.rnd x nn
  | drw x y n => exact Laws.FixedBits.drw x y n
  | skp x => exact Laws.FixedBits.skp x
  | sknp x => exact Laws.FixedBits.sknp x
  | ldVxDt x => exact Laws.FixedBits.ldVxDt x
  | ldVxK x => exact Laws.FixedBits.ldVxK x
  | ldDtVx x => exact Laws.FixedBits.ldDtVx x
  | ldStVx x => exact Laws.FixedBits.ldStVx x
  | addIVx x => exact Laws.FixedBits.addIVx x
  | ldFVx x => exact Laws.FixedBits.ldFVx x
  | ldBVx x => exact Laws.FixedBits.ldBVx x
  | ldMemVx x => exact Laws.FixedBits.ldMemVx x
  | ldVxMem x => exact Laws.FixedBits.ldVxMem x

/-- Settles O3: what decodes is an encoding, which has its row's digits; every row decodes to its own mnemonic; so two rows
that match one word have one mnemonic, and the table lists each mnemonic once. -/
theorem decoderAgreesWithOpcodeTable : Obligations.DecoderAgreesWithOpcodeTable := by
  refine ⟨fun w i h => ?_, fun w r hr h => exists_decodeWord_of_rowMatches hr h, fun w r q hr hq hrw hqw => ?_⟩
  · have hi := fixedBits i
    rwa [Laws.FixedBits.Statement, encode_of_decodeWord h] at hi
  · obtain ⟨i, hi, hir⟩ := exists_decodeWord_of_rowMatches hr hrw
    obtain ⟨j, hj, hjq⟩ := exists_decodeWord_of_rowMatches hq hqw
    obtain rfl : i = j := Except.ok.inj (hi.symm.trans hj)
    exact List.inj_on_of_nodup_map opcodeRows_mnemonics_nodup hr hq (hir.symm.trans hjq)

/-! ## The illegal words -/

/-- The major opcode by number. -/
theorem opField_of_div {w : Word} {op : Nibble} (h : w.toNat / 4096 = op.toNat) : opField w = op := by
  apply BitVec.eq_of_toNat_eq
  rw [opField_toNat, h, Nat.mod_eq_of_lt op.isLt]

theorem nField_ne_zero {w : Word} (h : w.toNat % 16 ≠ 0) : nField w ≠ 0x0 := by
  intro hn
  rw [← nField_toNat, hn] at h
  exact h rfl

theorem decodeMajor8_illegal (x y : Reg) {n : Nibble} (h : n.toNat ∈ [0x8, 0x9, 0xA, 0xB, 0xC, 0xD, 0xF]) :
    decodeMajor8 x y n = .error .major8 := by
  have hn : n ∈ ([0x8, 0x9, 0xA, 0xB, 0xC, 0xD, 0xF] : List Nibble) := by
    revert n
    decide
  fin_cases hn <;> rfl

theorem decodeMajorE_illegal (x : Reg) {nn : Byte} (h : nn.toNat ∉ [0x9E, 0xA1]) : decodeMajorE x nn = .error .majorE := by
  simp only [List.mem_cons, List.not_mem_nil, or_false, not_or] at h
  simp [decodeMajorE, ← BitVec.toNat_inj, h]

theorem decodeMajorF_illegal (x : Reg) {nn : Byte}
    (h : nn.toNat ∉ [0x07, 0x0A, 0x15, 0x18, 0x1E, 0x29, 0x33, 0x55, 0x65]) : decodeMajorF x nn = .error .majorF := by
  simp only [List.mem_cons, List.not_mem_nil, or_false, not_or] at h
  simp [decodeMajorF, ← BitVec.toNat_inj, h]

/-- Settles O4: each major opcode with illegal words has one lemma about its minor opcodes, read here by number. -/
theorem illegalWordsAreRejected : Obligations.IllegalWordsAreRejected := by
  intro w
  refine ⟨fun h hcls hret => ?_, fun h hn => ?_, fun h hn => ?_, fun h hn => ?_, fun h hn => ?_, fun h hn => ?_⟩
  · rw [decodeWord_major0 (opField_of_div (Nat.div_eq_of_lt h)), decodeMajor0, if_neg hcls, if_neg hret]
  · rw [decodeWord_major5 (opField_of_div h), if_neg (nField_ne_zero hn)]
  · rw [decodeWord_major8 (opField_of_div h), decodeMajor8_illegal _ _ (nField_toNat w ▸ hn)]
  · rw [decodeWord_major9 (opField_of_div h), if_neg (nField_ne_zero hn)]
  · rw [decodeWord_majorE (opField_of_div h), decodeMajorE_illegal _ (nnField_toNat w ▸ hn)]
  · rw [decodeWord_majorF (opField_of_div h), decodeMajorF_illegal _ (nnField_toNat w ▸ hn)]

/-- Settles O5: ten written-out words, each evaluated. -/
theorem writtenOutWordsDecode : Obligations.WrittenOutWordsDecode := by
  unfold Obligations.WrittenOutWordsDecode
  decide

end Sys2Proof
end

section
/-! What executing an instruction can come to, and the three causes of a fault (60_exceptions.md R260 to R269). -/

namespace Sys2Proof.Machine

/-! ## CALL and RET, the two that can fault -/

theorem exec_call_of_lt {s : State} (h : s.sp < 16) (nnn : Addr) :
    exec (.call nnn) s = .next ((s.push s.pc).setPc (zextAddr nnn)) := if_neg (not_le.2 h)

theorem exec_call_of_full {s : State} (h : 16 ≤ s.sp) (nnn : Addr) :
    exec (.call nnn) s = .fault (.stackOverflow s.insnAddr s) := if_pos h

theorem exec_ret_of_append {s : State} {l : List Word} {w : Word} (h : s.stack = l ++ [w]) :
    exec .ret s = .next ((s.setStack l).setPc w) := by
  simp [exec, execRet, h]

theorem exec_ret_of_empty {s : State} (h : s.stack = []) : exec .ret s = .fault (.stackUnderflow s.insnAddr s) := by
  simp [exec, execRet, h, raise]

/-- An instruction faults for want of room on the stack or of an entry, and otherwise answers a next state. -/
theorem exec_cases (i : Instr) (s : State) :
    (∃ nnn, i = .call nnn ∧ 16 ≤ s.sp ∧ exec i s = .fault (.stackOverflow s.insnAddr s)) ∨
    (i = .ret ∧ s.stack = [] ∧ exec i s = .fault (.stackUnderflow s.insnAddr s)) ∨
    ((∀ nnn, i = .call nnn → s.sp < 16) ∧ (i = .ret → s.stack ≠ []) ∧ ∃ t, exec i s = .next t) := by
  cases i with
  | call nnn =>
    by_cases h : s.sp < 16
    · exact .inr (.inr ⟨fun _ _ => h, nofun, _, exec_call_of_lt h nnn⟩)
    · exact .inl ⟨nnn, rfl, not_lt.1 h, exec_call_of_full (not_lt.1 h) nnn⟩
  | ret =>
    rcases List.eq_nil_or_concat s.stack with h | ⟨l, w, h⟩
    · exact .inr (.inl ⟨rfl, h, exec_ret_of_empty h⟩)
    · rw [List.concat_eq_append] at h
      exact .inr (.inr ⟨nofun, fun _ => by simp [h], _, exec_ret_of_append h⟩)
  | _ => exact .inr (.inr ⟨nofun, nofun, _, rfl⟩)

/-- A faulting instruction leaves the state it was given. -/
theorem exec_fault_left {i : Instr} {s : State} {f : Fault} (h : exec i s = .fault f) : f.left = s := by
  obtain ⟨_, _, _, hf⟩ | ⟨_, _, hf⟩ | ⟨_, _, t, hn⟩ := exec_cases i s
  · cases hf.symm.trans h; rfl
  · cases hf.symm.trans h; rfl
  · cases hn.symm.trans h

/-- An instruction faults exactly as a call on a full stack or a return on an empty one. -/
theorem exec_fault_iff (i : Instr) (s : State) :
    (∃ f, exec i s = .fault f) ↔ (∃ nnn, i = .call nnn ∧ 16 ≤ s.sp) ∨ (i = .ret ∧ s.stack = []) := by
  obtain ⟨nnn, hi, hsp, hf⟩ | ⟨hi, hs, hf⟩ | ⟨hc, hr, t, hn⟩ := exec_cases i s
  · exact iff_of_true ⟨_, hf⟩ (.inl ⟨nnn, hi, hsp⟩)
  · exact iff_of_true ⟨_, hf⟩ (.inr ⟨hi, hs⟩)
  · refine iff_of_false (fun ⟨f, hf⟩ => nomatch hn.symm.trans hf) ?_
    rintro (⟨nnn, hi, hsp⟩ | ⟨hi, hs⟩)
    · exact absurd hsp (not_le.2 (hc nnn hi))
    · exact hr hi hs

theorem exec_next_or_fault (i : Instr) (s : State) : (∃ t, exec i s = .next t) ∨ ∃ f, exec i s = .fault f := by
  obtain ⟨_, _, _, hf⟩ | ⟨_, _, hf⟩ | ⟨_, _, hn⟩ := exec_cases i s
  · exact .inr ⟨_, hf⟩
  · exact .inr ⟨_, hf⟩
  · exact .inl hn

/-! ## The step, with no key wait and with one -/

theorem runInstruction_ok {s : State} {i : Instr} (h : decodeWord s.fetch = .ok i) :
    runInstruction s = exec i s.advance := by
  simp [runInstruction, h]

theorem runInstruction_error {s : State} {e : Illegal} (h : decodeWord s.fetch = .error e) :
    runInstruction s = .fault (.invalidOpcode s.fetch s.pc s.advance) := by
  simp [runInstruction, h, raise]

theorem executorStep_idle {s : State} (h : s.kw = .idle) : executorStep s = runInstruction s := by
  simp [executorStep, h]

theorem executorStep_waiting {s : State} {x : Reg} (h : s.kw = .waiting x) : executorStep s = .next s := by
  simp [executorStep, h]

theorem executorStep_captured {s : State} {x : Reg} {k : Key} (h : s.kw = .captured x k) :
    executorStep s = .next (completeKeyWait x k s) := by
  simp [executorStep, h]

/-- With nothing queued and Running, the next event is the executor's step. -/
theorem step_of_no_input {s : State} (hq : s.inputs = []) (hr : s.run = true) : step s = executorStep s := by
  have hs : s.dropEvent = s := by cases s; cases hq; rfl
  rw [step, deliverEvent, hs, nextEvent, hq, applyEvent, if_pos hr]

theorem step_of_ready {s : State} (h : s.ready) : step s = runInstruction s := by
  obtain ⟨hq, hr, hk⟩ := h
  rw [step_of_no_input hq hr, executorStep_idle hk]

/-- Settles O6: the two bytes at PC join to the fetched word. -/
theorem stepRunsDecodedInstruction : Obligations.StepRunsDecodedInstruction := by
  intro s i rest hs _ hd
  have hd' : (decodeWord s.fetch).map (fun j => (j, rest)) = .ok (i, rest) := (decodeBytes_cons_cons _ _ rest).symm.trans hd
  have hi : decodeWord s.fetch = .ok i := by
    cases h : decodeWord s.fetch with
    | ok j => rw [h] at hd'; cases hd'; rfl
    | error e => rw [h] at hd'; cases hd'
  rw [step_of_ready hs, runInstruction_ok hi, State.advance]

/-- Settles O7: `runInstruction_error`. -/
theorem stepFaultsOnIllegalWord : Obligations.StepFaultsOnIllegalWord := by
  intro s e hs he
  rw [step_of_ready hs, runInstruction_error he, State.advance]

/-- Settles O13: an illegal word is found after the advance, and an instruction that faults leaves the advanced state. -/
theorem faultLeavesOnlyPcAdvanced : Obligations.FaultLeavesOnlyPcAdvanced := by
  intro s f h
  obtain ⟨_, ⟨e, _, rfl⟩ | ⟨i, _, hf⟩⟩ := executorStep_fault h
  · rfl
  · exact exec_fault_left hf

/-- Settles O14: with no key wait the step is decode and then the instruction, whose faults `exec_fault_iff` lists; the
stack bound turns "at least 16 entries" into "exactly 16". -/
theorem stepFaultsExactlyInThreeCases : Obligations.StepFaultsExactlyInThreeCases := by
  intro s hsp
  cases hk : s.kw with
  | waiting x => simp [executorStep_waiting hk]
  | captured x k => simp [executorStep_captured hk]
  | idle =>
    rw [executorStep_idle hk]
    cases hd : decodeWord s.fetch with
    | error e => simp [runInstruction_error hd]
    | ok i =>
      rw [runInstruction_ok hd]
      refine ⟨?_, exec_next_or_fault i s.advance⟩
      have hfull : 16 ≤ s.advance.sp ↔ s.sp = 16 := ⟨hsp.antisymm, fun h => h.ge⟩
      have hempty : s.advance.stack = [] ↔ s.sp = 0 := List.length_eq_zero_iff.symm
      simp [exec_fault_iff, hfull, hempty]

/-! ## Calls and returns -/

/-- Settles O20: the entry popped is the last, and becomes the PC as it stands. -/
theorem returnPopsIntoPc : Obligations.ReturnPopsIntoPc := by
  refine ⟨decodesTo_fullMask rfl, fun s => ⟨fun l w h => ?_, exec_ret_of_empty⟩⟩
  refine ⟨_, exec_ret_of_append h, rfl, rfl, by simp [State.sp, h], ?_⟩
  constructor <;> simp

/-- Settles O22: the stack has room, or it has none. -/
theorem callPushesPcAndJumps : Obligations.CallPushesPcAndJumps := by
  intro s nnn
  refine ⟨fun h => ⟨_, exec_call_of_lt h nnn, zextAddr_toNat nnn, rfl, ?_⟩, fun h => exec_call_of_full h.ge nnn⟩
  constructor <;> simp [State.push]

/-- Settles O23: the call's return address is the last entry of the stack it leaves. -/
theorem returnUndoesCall : Obligations.ReturnUndoesCall := by
  intro s nnn h
  exact ⟨_, exec_call_of_lt h nnn, fun u hu => ⟨_, exec_ret_of_append hu, rfl, rfl⟩⟩

/-- Calls that fit beside what the stack holds complete, and push their return addresses in order. -/
theorem nestCalls_of_fit (sites : List (Word × Addr)) (s : State) (h : s.sp + sites.length ≤ 16) :
    ∃ t, nestCalls sites s = .next t ∧ t.stack = s.stack ++ sites.map Prod.fst := by
  induction sites generalizing s with
  | nil => exact ⟨s, rfl, by simp⟩
  | cons c cs ih =>
    rw [List.length_cons] at h
    have hc := exec_call_of_lt (s := s.setPc c.1) (show s.sp < 16 by omega) c.2
    obtain ⟨t, ht, hs⟩ := ih (((s.setPc c.1).push c.1).setPc (zextAddr c.2)) (by
      simp only [State.sp, State.push, State.setPc_stack, State.setStack_stack, List.length_append,
        List.length_singleton] at h ⊢
      omega)
    refine ⟨t, ?_, by simp [hs, State.push]⟩
    rw [nestCalls, hc]
    exact ht

/-- Settles O24: `nestCalls_of_fit` from the empty stack; 16 return addresses fill it. -/
theorem callsNestToDepthSixteen : Obligations.CallsNestToDepthSixteen := by
  intro s sites hs hlen
  obtain ⟨t, ht, hst⟩ := nestCalls_of_fit sites s (by simpa [State.sp, hs] using hlen)
  rw [hs, List.nil_append] at hst
  refine ⟨t, ht, hst, fun h16 nnn => exec_call_of_full ?_ nnn⟩
  simp [State.sp, hst, h16]

end Sys2Proof.Machine
end

section
/-! Who writes what (10_state.md sections 1 to 10), and what follows for VF, the PC and the timers. -/

namespace Sys2Proof.Machine

/-! ## One lemma on what an instruction changes -/

theorem exec_call_next {nnn : Addr} {s t : State} (h : exec (.call nnn) s = .next t) :
    t = (s.push s.pc).setPc (zextAddr nnn) := by
  by_cases hsp : s.sp < 16
  · exact (Host.Outcome.next.inj ((exec_call_of_lt hsp nnn).symm.trans h)).symm
  · exact nomatch (exec_call_of_full (not_lt.1 hsp) nnn).symm.trans h

theorem exec_ret_next {s t : State} (h : exec .ret s = .next t) :
    ∃ l w, s.stack = l ++ [w] ∧ t = (s.setStack l).setPc w := by
  rcases List.eq_nil_or_concat s.stack with hs | ⟨l, w, hs⟩
  · exact nomatch (exec_ret_of_empty hs).symm.trans h
  · rw [List.concat_eq_append] at hs
    exact ⟨l, w, hs, (Host.Outcome.next.inj ((exec_ret_of_append hs).symm.trans h)).symm⟩

/-- Each part of the state is the same in `t` as in `s`, or `i` is a writer of it that the spec lists. -/
structure WritesListed (ins : Instr) (s t : State) : Prop where
  reg : ∀ r, t.reg r ≠ s.reg r → r ∈ destinations ins
  pc : t.pc ≠ s.pc → setsPc ins = true
  stack : t.stack ≠ s.stack → ins = .ret ∨ ∃ nnn, ins = .call nnn
  i : t.i ≠ s.i → (∃ nnn, ins = .ldI nnn) ∨ (∃ x, ins = .addIVx x) ∨ ∃ x, ins = .ldFVx x
  dt : t.dt ≠ s.dt → ∃ x, ins = .ldDtVx x
  st : t.st ≠ s.st → ∃ x, ins = .ldStVx x
  fb : t.fb ≠ s.fb → ins = .cls ∨ ∃ x y n, ins = .drw x y n
  mem : t.mem ≠ s.mem → (∃ x, ins = .ldBVx x) ∨ ∃ x, ins = .ldMemVx x
  kw : t.kw ≠ s.kw → ∃ x, ins = .ldVxK x
  draws : t.draws ≠ s.draws → ∃ x nn, ins = .rnd x nn
  keys : t.keys = s.keys
  run : t.run = s.run
  program : t.program = s.program
  slots : t.slots = s.slots
  params : t.params = s.params
  inputs : t.inputs = s.inputs

theorem exec_writesListed {i : Instr} {s t : State} (h : exec i s = .next t) : WritesListed i s t := by
  cases i with
  | ret =>
    obtain ⟨l, w, -, rfl⟩ := exec_ret_next h
    constructor <;> simp [setsPc]
  | call nnn =>
    cases exec_call_next h
    constructor <;> simp [setsPc, State.push]
  | seImm x nn | sneImm x nn | seReg x y | sneReg x y | skp x | sknp x =>
    cases (State.skipIf_eq_setPc s _).symm.trans (Host.Outcome.next.inj h)
    constructor <;> simp [setsPc]
  | ldImm x nn | addImm x nn | ldReg x y | orReg x y | andReg x y | xorReg x y | ldVxDt x =>
    cases Host.Outcome.next.inj h
    constructor <;> simp [destinations]
  | addReg x y | sub x y | shr x y | subn x y | shl x y =>
    cases Host.Outcome.next.inj h
    constructor <;> simp [destinations]
    grind
  | drw x y n =>
    cases Host.Outcome.next.inj h
    constructor <;> simp [destinations, State.setFlag]
  | rnd x nn =>
    cases Host.Outcome.next.inj h
    constructor <;> simp [destinations, State.nextDraw]
  | ldVxMem x =>
    cases Host.Outcome.next.inj h
    have hregs := (Unchanged.setRegsFrom s x (s.bytesAtI (x.val + 1)) (s.readBytes_length _ _)).regs
    constructor <;> simp
    exact fun r => not_imp_comm.1 (hregs r)
  | cls | jp nnn | ldI nnn | jpV0 nnn | ldVxK x | ldDtVx x | ldStVx x | addIVx x | ldFVx x | ldBVx x | ldMemVx x =>
    cases Host.Outcome.next.inj h
    constructor <;> simp [setsPc]

/-- Settles O15: `exec_writesListed`, field by field. -/
theorem onlyListedInstructionsWriteEachPart : Obligations.OnlyListedInstructionsWriteEachPart := by
  intro i s t h
  have hw := exec_writesListed h
  exact ⟨hw.reg, hw.pc, hw.stack, hw.i, hw.dt, hw.st, hw.fb, hw.mem, hw.kw, hw.draws, hw.keys, hw.run, hw.program, hw.slots,
    hw.params, hw.inputs⟩

/-! ## VF -/

theorem flagByte_zero_or_one (c : Bool) : flagByte c = 0 ∨ flagByte c = 1 := by cases c <;> decide

/-- The instructions of R21's table end in `setFlag`. -/
theorem exec_flag {i : Instr} {s t : State} (h : exec i s = .next t) (hi : writesFlag i = true) :
    ∃ u c, t = State.setFlag u c := by
  cases i with
  | addReg x y | sub x y | shr x y | subn x y | shl x y | drw x y n => exact ⟨_, _, (Host.Outcome.next.inj h).symm⟩
  | _ => cases hi

/-- VF is a destination of the instructions of R21's table and of those whose X names it. -/
theorem vf_mem_destinations {i : Instr} (h : vf ∈ destinations i) : writesFlag i = true ∨ destinationIsVf i = true := by
  cases i <;> simp_all [destinations, writesFlag, destinationIsVf]
  case ldVxMem x => exact Fin.last_le_iff.1 h

/-- Settles O16: a flag is 0 or 1, and a changed VF is a destination. -/
theorem onlyFlagInstructionsWriteVf : Obligations.OnlyFlagInstructionsWriteVf := by
  intro i s t h
  constructor
  · intro hi
    obtain ⟨u, c, rfl⟩ := exec_flag h hi
    simpa [State.setFlag] using flagByte_zero_or_one c
  · intro hf hd
    by_contra hne
    have hvf := vf_mem_destinations ((exec_writesListed h).reg vf hne)
    simp [hf, hd] at hvf

/-! ## The PC -/

theorem pcAfter_of_not_setsPc {i : Instr} (h : setsPc i = false) (s : State) : pcAfter i s = s.pc + 2 := by
  cases i with
  | ret | jp nnn | call nnn | jpV0 nnn | ldVxK x => cases h
  | seImm x nn | sneImm x nn | seReg x y | sneReg x y | skp x | sknp x => cases h
  | _ => rfl

theorem add_two_add_two (w : Word) : w + 2#16 + 2#16 = w + 4#16 := BitVec.add_assoc w 2 2

@[simp] theorem State.keyOperand_setPc (s : State) (w : Word) (x : Reg) : (s.setPc w).keyOperand x = s.keyOperand x := rfl

/-- Where an instruction leaves the PC (R25). -/
theorem exec_pc {i : Instr} {s t : State} (h : exec i s.advance = .next t) : t.pc = pcAfter i s := by
  cases hi : setsPc i with
  | false =>
    have hpc : t.pc = s.advance.pc := by
      by_contra hne
      simp [(exec_writesListed h).pc hne] at hi
    rw [hpc, pcAfter_of_not_setsPc hi]
    rfl
  | true =>
    cases i with
    | ret =>
      obtain ⟨l, w, hs, rfl⟩ := exec_ret_next h
      simp [pcAfter, show s.stack = l ++ [w] from hs]
    | call nnn => cases exec_call_next h; rfl
    | jp nnn | jpV0 nnn => cases Host.Outcome.next.inj h; rfl
    | ldVxK x =>
      cases Host.Outcome.next.inj h
      exact State.insnAddr_advance s
    | seImm x nn | sneImm x nn | seReg x y | sneReg x y | skp x =>
      cases Host.Outcome.next.inj h
      simp [pcAfter, State.advance, add_two_add_two]
    | sknp x =>
      cases Host.Outcome.next.inj h
      cases hk : s.key (s.keyOperand x) <;> simp [pcAfter, State.advance, hk, add_two_add_two]
    | _ => cases hi

/-- Settles O10: the two rows of the key wait, `exec_pc` for the rest, and for a fault the state it leaves. -/
theorem pcAfterEveryStep : Obligations.PcAfterEveryStep := by
  intro s hq hr
  rw [step_of_no_input hq hr]
  refine ⟨fun x hk => ⟨s, executorStep_waiting hk, rfl⟩, fun x k hk => ⟨_, executorStep_captured hk, rfl⟩,
    fun i t hk hd h => ?_, fun nnn t hk hd h => ?_, fun f h => ?_⟩
  · rw [executorStep_idle hk, runInstruction_ok hd] at h
    exact exec_pc h
  · rw [executorStep_idle hk, runInstruction_ok hd] at h
    cases exec_call_next h
    rfl
  · rw [faultLeavesOnlyPcAdvanced s f h, State.setPc_pc]

/-! ## The timers -/

/-- Each timer replaced by a function of itself and of the pause state. -/
def State.mapTimers (f g : Bool → Byte → Byte) (s : State) : State := (s.setDt (f s.run s.dt)).setSt (g s.run s.st)

section
variable (f g : Bool → Byte → Byte) (s : State)

theorem State.writeBytes_mapTimers (a : Nat) (bs : List Byte) :
    (s.mapTimers f g).writeBytes a bs = (s.writeBytes a bs).mapTimers f g := by
  induction bs generalizing s a with
  | nil => rfl
  | cons b bs ih => exact ih (s.writeByte a b) (a + 1)

theorem State.setRegsFrom_mapTimers (r : Nat) (bs : List Byte) :
    (s.mapTimers f g).setRegsFrom r bs = (s.setRegsFrom r bs).mapTimers f g := by
  induction bs generalizing s r with
  | nil => rfl
  | cons b bs ih => exact ih (s.setReg (Fin.ofNat 16 r) b) (r + 1)

theorem State.readBytes_mapTimers (a n : Nat) : (s.mapTimers f g).readBytes a n = s.readBytes a n := by
  induction n generalizing a with
  | zero => rfl
  | succ n ih => exact congrArg (s.readByte a :: ·) (ih (a + 1))

theorem State.bytesAtI_mapTimers (n : Nat) : (s.mapTimers f g).bytesAtI n = s.bytesAtI n :=
  State.readBytes_mapTimers f g s s.i.toNat n

theorem State.skipIf_mapTimers (c : Bool) : (s.mapTimers f g).skipIf c = (s.skipIf c).mapTimers f g := by
  cases c <;> rfl

/-- An instruction that names no timer neither reads nor writes one. -/
theorem exec_mapTimers {i : Instr} (h₁ : ∀ x, i ≠ .ldVxDt x) (h₂ : ∀ x, i ≠ .ldDtVx x) (h₃ : ∀ x, i ≠ .ldStVx x) :
    exec i (s.mapTimers f g) = mapOutcome (State.mapTimers f g) (exec i s) := by
  cases i with
  | ldVxDt x => exact absurd rfl (h₁ x)
  | ldDtVx x => exact absurd rfl (h₂ x)
  | ldStVx x => exact absurd rfl (h₃ x)
  | ret =>
    rcases List.eq_nil_or_concat s.stack with hs | ⟨l, w, hs⟩
    · rw [exec_ret_of_empty hs, exec_ret_of_empty (show (s.mapTimers f g).stack = [] from hs)]
      rfl
    · rw [List.concat_eq_append] at hs
      rw [exec_ret_of_append hs, exec_ret_of_append (show (s.mapTimers f g).stack = l ++ [w] from hs)]
      rfl
  | call nnn =>
    by_cases hsp : s.sp < 16
    · rw [exec_call_of_lt hsp, exec_call_of_lt (show (s.mapTimers f g).sp < 16 from hsp)]
      rfl
    · have hsp' := not_lt.1 hsp
      rw [exec_call_of_full hsp', exec_call_of_full (show 16 ≤ (s.mapTimers f g).sp from hsp')]
      rfl
  | seImm x nn | sneImm x nn | seReg x y | sneReg x y | skp x | sknp x =>
    exact congrArg Host.Outcome.next (State.skipIf_mapTimers f g s _)
  | drw x y n =>
    simp only [exec, execDrw, State.bytesAtI_mapTimers]
    rfl
  | ldBVx x | ldMemVx x => exact congrArg Host.Outcome.next (State.writeBytes_mapTimers f g s _ _)
  | ldVxMem x =>
    simp only [exec, execLdVxMem, State.bytesAtI_mapTimers, State.setRegsFrom_mapTimers]
    rfl
  | _ => rfl

end

/-- Settles O17: `exec_mapTimers`, and the two instructions that name DT. -/
theorem noInstructionReadsSoundTimer : Obligations.NoInstructionReadsSoundTimer := by
  intro i s b hst
  cases i with
  | ldVxDt x | ldDtVx x => rfl
  | _ => exact exec_mapTimers (fun _ d => d) (fun _ _ => b) s nofun nofun hst

theorem tick_eq_mapTimers :
    tick = State.mapTimers (fun run d => if run then countDown d else d) (fun run d => if run then countDown d else d) := by
  funext s
  obtain ⟨v, i, pc, stack, dt, st, fb, keys, kw, mem, run, program, slots, params, inputs, draws⟩ := s
  cases run <;> rfl

/-- Settles O18: a tick is a `mapTimers`. -/
theorem tickCommutesWithTimerFreeInstructions : Obligations.TickCommutesWithTimerFreeInstructions := by
  intro i s h₁ h₂ h₃
  rw [tick_eq_mapTimers]
  exact exec_mapTimers _ _ s h₁ h₂ h₃

end Sys2Proof.Machine
end

section
/-! The invariant (10_state.md R52, 00_scope.md R11, 70_reset_and_hazards.md R324): power-on establishes it, every event
keeps it. -/

namespace Sys2Proof.Machine

/-- What the invariant reads of a state. -/
theorem State.Inv.of_eq {s t : State} (h : s.Inv) (hp : t.params = s.params) (hs : t.stack.length ≤ 16)
    (hm : t.mem.wf s.params = true) (hg : programWf t.program = true) (hl : t.slots = s.slots) : t.Inv := by
  obtain ⟨hw, -, -, hn⟩ := h
  exact ⟨hp ▸ hw, ⟨hs, hp ▸ hm⟩, hg, fun slot n hv => hp ▸ hn slot n (hl ▸ hv)⟩

/-- The invariant of the state an outcome carries, whether the step goes on or faults. -/
def OutcomeInv (o : Host.Outcome State Fault Refusal) : Prop :=
  (∀ t, o = .next t → t.Inv) ∧ ∀ f, o = .fault f → f.left.Inv

theorem OutcomeInv.next {t : State} (h : t.Inv) : OutcomeInv (.next t) :=
  ⟨fun _ ht => Host.Outcome.next.inj ht ▸ h, nofun⟩

section
variable {s : State} (h : s.Inv)
include h

theorem State.Inv.stack_le : s.stack.length ≤ 16 :=
  let ⟨_, ⟨hs, _⟩, _, _⟩ := h
  hs

theorem State.Inv.mem_wf : s.mem.wf s.params = true :=
  let ⟨_, ⟨_, hm⟩, _, _⟩ := h
  hm

theorem State.Inv.programWf : programWf s.program = true :=
  let ⟨_, _, hg, _⟩ := h
  hg

theorem State.Inv.slot {slot : Slot} {n : Snapshot} (hn : s.slots[slot.val] = some n) : n.Inv s.params :=
  let ⟨_, _, _, hslots⟩ := h
  hslots slot n hn

/-- A change of nothing that the invariant reads. -/
theorem State.Inv.of_same {t : State} (hp : t.params = s.params) (hs : t.stack = s.stack) (hm : t.mem = s.mem)
    (hg : t.program = s.program) (hl : t.slots = s.slots) : t.Inv :=
  h.of_eq hp (hs ▸ h.stack_le) (hm ▸ h.mem_wf) (hg ▸ h.programWf) hl

theorem State.Inv.setPc (w : Word) : (s.setPc w).Inv := h.of_same rfl rfl rfl rfl rfl

theorem State.Inv.writeBytes (a : Nat) (bs : List Byte) : (s.writeBytes a bs).Inv :=
  h.of_eq (s.writeBytes_params a bs) ((s.writeBytes_stack a bs).symm ▸ h.stack_le) (s.wf_writeBytes a bs h.mem_wf)
    ((s.writeBytes_program a bs).symm ▸ h.programWf) (s.writeBytes_slots a bs)

theorem State.Inv.setProgram {bytes : List Byte} (hb : Sys2Proof.programWf bytes = true) : (s.setProgram bytes).Inv :=
  h.of_eq rfl h.stack_le h.mem_wf hb rfl

theorem State.Inv.clearBlock : s.clearBlock.Inv := h.of_eq rfl (Nat.zero_le 16) h.mem_wf h.programWf rfl

/-! ## The instructions -/

/-- CALL is the one instruction that lengthens the stack, and it asks for room first. -/
theorem State.Inv.exec_stack_le {i : Instr} {t : State} (ht : exec i s = .next t) : t.stack.length ≤ 16 := by
  by_cases hst : t.stack = s.stack
  · exact hst ▸ h.stack_le
  · rcases (exec_writesListed ht).stack hst with rfl | ⟨nnn, rfl⟩
    · obtain ⟨l, w, hs, rfl⟩ := exec_ret_next ht
      have hle := h.stack_le
      rw [hs, List.length_append] at hle
      exact (Nat.le_add_right _ _).trans hle
    · have hsp : s.sp < 16 := by
        by_contra hfull
        exact nomatch (exec_call_of_full (not_lt.1 hfull) nnn).symm.trans ht
      cases exec_call_next ht
      rw [State.setPc_stack, State.push, State.setStack_stack, List.length_append]
      exact hsp

/-- The two instructions that write memory do so by `writeBytes`. -/
theorem State.Inv.exec_mem_wf {i : Instr} {t : State} (ht : exec i s = .next t) : t.mem.wf s.params = true := by
  by_cases hm : t.mem = s.mem
  · exact hm ▸ h.mem_wf
  · rcases (exec_writesListed ht).mem hm with ⟨x, rfl⟩ | ⟨x, rfl⟩
    · cases Host.Outcome.next.inj ht; exact s.wf_writeBytes _ _ h.mem_wf
    · cases Host.Outcome.next.inj ht; exact s.wf_writeBytes _ _ h.mem_wf

theorem State.Inv.exec {i : Instr} {t : State} (ht : exec i s = .next t) : t.Inv :=
  have hw := exec_writesListed ht
  h.of_eq hw.params (h.exec_stack_le ht) (h.exec_mem_wf ht) (hw.program ▸ h.programWf) hw.slots

theorem State.Inv.executorStep : OutcomeInv (executorStep s) := by
  refine ⟨fun t ht => ?_, fun f hf => faultLeavesOnlyPcAdvanced s f hf ▸ h.setPc _⟩
  obtain ⟨x, -, rfl⟩ | ⟨x, k, -, rfl⟩ | ⟨-, i, -, hi⟩ := executorStep_next ht
  · exact h
  · exact h.of_same rfl rfl rfl rfl rfl
  · exact (h.setPc _).exec hi

/-! ## The other events -/

theorem State.Inv.loadProgram {bytes : List Byte} {t : State} (ht : loadProgram bytes s = .ok t) : t.Inv := by
  unfold Machine.loadProgram at ht
  split at ht
  · cases ht
    exact (h.writeBytes _ _).setProgram ‹_›
  · cases ht

theorem State.Inv.saveState (slot : Slot) : (saveState slot s).Inv := by
  obtain ⟨hw, hb, hg, hn⟩ := h
  refine ⟨hw, hb, hg, fun slot' n hn' => ?_⟩
  change (s.slots.set slot.val (some s.snapshot))[slot'.val] = some n at hn'
  rw [Vector.getElem_set] at hn'
  split at hn'
  · cases hn'; exact hb
  · exact hn slot' n hn'

theorem State.Inv.loadState {slot : Slot} {t : State} (ht : loadState slot s = .ok t) : t.Inv := by
  unfold Machine.loadState at ht
  split at ht
  · cases ht
  · rename_i n hn
    cases ht
    exact h.of_eq rfl (h.slot hn).1 (h.slot hn).2 h.programWf rfl

/-- A host command that may fail keeps the invariant if its success does. -/
theorem State.Inv.orUnchanged {r : Except HostError State} (hr : ∀ t, r = .ok t → t.Inv) : (s.orUnchanged r).Inv := by
  cases r with
  | ok t => exact hr t rfl
  | error e => exact h

theorem State.Inv.tick : (tick s).Inv := by
  unfold Machine.tick
  split
  · exact h.of_same rfl rfl rfl rfl rfl
  · exact h

theorem State.Inv.applyEvent (e : Event) : OutcomeInv (applyEvent e s) := by
  cases e with
  | step =>
    rw [Machine.applyEvent]
    split
    · exact h.executorStep
    · exact .next h
  | singleStep =>
    rw [Machine.applyEvent]
    split
    · exact .next h
    · exact h.executorStep
  | tick => exact .next h.tick
  | setKey _ _ | pause | resume => exact .next (h.of_same rfl rfl rfl rfl rfl)
  | restart => exact .next (h.writeBytes _ _).clearBlock
  | loadProgram bytes => exact .next (h.orUnchanged fun _ => h.loadProgram)
  | saveState slot => exact .next (h.saveState slot)
  | loadState slot => exact .next (h.orUnchanged fun _ => h.loadState)

end

/-- Settles O11: taking an event from the queue touches nothing the invariant reads, and then `State.Inv.applyEvent`. -/
theorem stepKeepsInvariant : Obligations.StepKeepsInvariant := by
  intro s h
  have hd : s.dropEvent.Inv := h.of_same rfl rfl rfl rfl rfl
  exact hd.applyEvent (nextEvent s)

/-- Every slot is empty after power-on, memory lists nothing and the stack is empty. -/
theorem State.reset_inv {p : Params} (hp : p.wf = true) : State.Inv { State.reset with params := p } := by
  refine ⟨hp, ⟨Nat.zero_le 16, rfl⟩, rfl, fun slot n hn => ?_⟩
  simp [State.reset] at hn

/-- Settles O12: power-on is a program load from the reset state with the chosen parameters. -/
theorem powerOnMeetsInvariant : Obligations.PowerOnMeetsInvariant :=
  ⟨State.reset_inv (p := defaultParams) (by decide), fun _ _ _ hp h => (State.reset_inv hp).loadProgram h⟩

end Sys2Proof.Machine
end

section
/-! The blit, pixel by pixel (46_draw.md R192 to R196). -/

namespace Sys2Proof.Machine

/-! ## The pixels under a part of a sprite

A part of a sprite is told by the screen pixels it covers. `Blitted fb P acc` says that `acc` comes from `fb` by toggling
exactly the pixels of `P`, with the collision result that this gives. It grows pixel by pixel, each one new to `P`. -/

/-- The screen pixel that coordinates name, which wrap (R190). -/
def samePixel (y x py px : Nat) : Prop := y % 32 = py % 32 ∧ x % 64 = px % 64

/-- The pixels of one sprite row's first `k` columns, drawn at column `x` and row `y` (R192). -/
def rowCovers (row : Byte) (x y k py px : Nat) : Prop := ∃ c < k, rowBit row c = true ∧ samePixel y (x + c) py px

/-- Exactly the pixels of `P` have toggled, and a lit one of them was met or not. -/
def Blitted (fb : FrameBuffer) (P : Nat → Nat → Prop) (acc : FrameBuffer × Bool) : Prop :=
  (∀ py px, pixel acc.1 py px = true ↔ ¬ (pixel fb py px = true ↔ P py px)) ∧
  (acc.2 = true ↔ ∃ py px, pixel fb py px = true ∧ P py px)

theorem Blitted.refl (fb : FrameBuffer) : Blitted fb (fun _ _ => False) (fb, false) := by
  simp [Blitted]

theorem Blitted.congr {fb : FrameBuffer} {P Q : Nat → Nat → Prop} {acc : FrameBuffer × Bool}
    (h : ∀ py px, P py px ↔ Q py px) (hb : Blitted fb P acc) : Blitted fb Q acc := by
  obtain rfl : P = Q := funext₂ fun py px => propext (h py px)
  exact hb

/-- Plotting a pixel that is not yet in `P`: it still has its first value, so it toggles once and collides if it was lit. -/
theorem Blitted.plot {fb : FrameBuffer} {P : Nat → Nat → Prop} {acc : FrameBuffer × Bool} {x y : Nat}
    (hb : Blitted fb P acc) (hP : ∀ py px, samePixel y x py px → ¬ P py px) :
    Blitted fb (fun py px => P py px ∨ samePixel y x py px) (plot x y acc) := by
  obtain ⟨hfb, hc⟩ := plot_spec x y acc
  have hsame : ∀ py px, samePixel y x py px → pixel acc.1 py px = pixel fb py px := by
    intro py px h
    have hpx := hb.1 py px
    simp only [hP py px h, iff_false, not_not] at hpx
    exact Bool.eq_iff_iff.2 hpx
  constructor
  · intro py px
    rw [hfb, pixel_flipPixel]
    split
    · rename_i h
      have h' : samePixel y x py px := ⟨h.1.symm, h.2.symm⟩
      simp [hsame py px h', h', hP py px h']
    · rename_i h
      have h' : ¬ samePixel y x py px := fun h' => h ⟨h'.1.symm, h'.2.symm⟩
      simp [hb.1 py px, h']
  · rw [hc, hb.2, hsame y x ⟨rfl, rfl⟩]
    constructor
    · rintro (⟨py, px, hl, hp⟩ | hl)
      · exact ⟨py, px, hl, .inl hp⟩
      · exact ⟨y, x, hl, .inr ⟨rfl, rfl⟩⟩
    · rintro ⟨py, px, hl, hp | hp⟩
      · exact .inl ⟨py, px, hl, hp⟩
      · exact .inr ((pixel_congr fb hp.1 hp.2).trans hl)

/-! ## A row -/

theorem rowCovers_succ (row : Byte) (x y k py px : Nat) :
    rowCovers row x y (k + 1) py px ↔ rowCovers row x y k py px ∨ (rowBit row k = true ∧ samePixel y (x + k) py px) := by
  simp only [rowCovers, Nat.lt_succ_iff_lt_or_eq]
  constructor
  · rintro ⟨c, hc | rfl, hbit⟩
    · exact .inl ⟨c, hc, hbit⟩
    · exact .inr hbit
  · rintro (⟨c, hc, hbit⟩ | hbit)
    · exact ⟨c, .inl hc, hbit⟩
    · exact ⟨k, .inr rfl, hbit⟩

/-- The first `k` columns of a row; at most 64 columns lie side by side without meeting. -/
theorem Blitted.columns {fb : FrameBuffer} {P : Nat → Nat → Prop} {acc : FrameBuffer × Bool} {row : Byte} {x y : Nat}
    (hb : Blitted fb P acc) (k : Nat) (hk : k ≤ 64) (hP : ∀ py px, rowCovers row x y k py px → ¬ P py px) :
    Blitted fb (fun py px => P py px ∨ rowCovers row x y k py px)
      ((List.range k).foldl (fun acc c => if rowBit row c then Machine.plot (x + c) y acc else acc) acc) := by
  induction k with
  | zero => exact hb.congr fun py px => by simp [rowCovers]
  | succ k ih =>
    have ihk := ih (by omega) fun py px h => hP py px ((rowCovers_succ ..).2 (.inl h))
    rw [List.range_succ, List.foldl_append, List.foldl_cons, List.foldl_nil]
    split
    · rename_i hbit
      refine (ihk.plot ?_).congr fun py px => ?_
      · rintro py px hs (hp | ⟨c, hc, -, hs'⟩)
        · exact hP py px ((rowCovers_succ ..).2 (.inr ⟨hbit, hs⟩)) hp
        · have hcol := hs.2.trans hs'.2.symm
          omega
      · simp [rowCovers_succ, hbit, or_assoc]
    · rename_i hbit
      exact ihk.congr fun py px => by simp [rowCovers_succ, hbit]

/-! ## A sprite -/

theorem spriteCovers_cons (row : Byte) (rows : List Byte) (x y py px : Nat) :
    spriteCovers (row :: rows) x y py px ↔ rowCovers row x y 8 py px ∨ spriteCovers rows x (y + 1) py px := by
  constructor
  · rintro ⟨r, c, hr, hc, hbit, hs⟩
    cases r with
    | zero => exact .inl ⟨c, hc, hbit, hs⟩
    | succ r => exact .inr ⟨r, c, by simpa using hr, hc, hbit, by rw [← hs.1, Nat.add_right_comm, Nat.add_assoc], hs.2⟩
  · rintro (⟨c, hc, hbit, hs⟩ | ⟨r, c, hr, hc, hbit, hs⟩)
    · exact ⟨0, c, by simp, hc, hbit, hs⟩
    · exact ⟨r + 1, c, by simpa using hr, hc, hbit, by rw [← hs.1, Nat.add_right_comm, Nat.add_assoc], hs.2⟩

/-- All the rows; at most 32 of them lie one below the other without meeting. -/
theorem Blitted.rows {fb : FrameBuffer} {x : Nat} (rows : List Byte) {P : Nat → Nat → Prop} {acc : FrameBuffer × Bool}
    {y : Nat} (hb : Blitted fb P acc) (hlen : rows.length ≤ 32) (hP : ∀ py px, spriteCovers rows x y py px → ¬ P py px) :
    Blitted fb (fun py px => P py px ∨ spriteCovers rows x y py px) (blitRows x y rows acc) := by
  induction rows generalizing P acc y with
  | nil => exact hb.congr fun py px => by simp [spriteCovers]
  | cons row rows ih =>
    rw [List.length_cons] at hlen
    have hrow := hb.columns (row := row) (x := x) (y := y) 8 (by decide) fun py px h =>
      hP py px ((spriteCovers_cons ..).2 (.inl h))
    refine (ih hrow (by omega) ?_).congr fun py px => by rw [spriteCovers_cons, or_assoc]
    rintro py px hs (hp | ⟨c, -, -, hpix⟩)
    · exact hP py px ((spriteCovers_cons ..).2 (.inr hs)) hp
    · obtain ⟨r, c', hr, -, -, hy, -⟩ := hs
      have hrow' := hpix.1
      omega

theorem blitted_blit (fb : FrameBuffer) (x y : Nat) (rows : List Byte) (h : rows.length ≤ 32) :
    Blitted fb (spriteCovers rows x y) (blit fb x y rows) :=
  ((Blitted.refl fb).rows rows h fun _ _ _ => id).congr fun _ _ => by rw [false_or]

/-- Settles O36: `blitted_blit`, with far fewer rows than would meet. -/
theorem blitTogglesExactlySpritePixels : Obligations.BlitTogglesExactlySpritePixels :=
  fun fb x y rows h => blitted_blit fb x y rows (h.trans (by decide))

/-- A pixel that a blit turned on is one that it covers and that was dark. -/
theorem Blitted.turned_on_iff {fb : FrameBuffer} {P : Nat → Nat → Prop} {acc : FrameBuffer × Bool} (hb : Blitted fb P acc)
    (py px : Nat) : (pixel acc.1 py px = true ∧ P py px) ↔ (pixel fb py px = false ∧ pixel acc.1 py px = true) := by
  have h := hb.1 py px
  cases hf : pixel fb py px <;> simp [hf] at h ⊢ <;> tauto

/-- A pixel that a blit turned off is one that it covers and that was lit. -/
theorem Blitted.turned_off_iff {fb : FrameBuffer} {P : Nat → Nat → Prop} {acc : FrameBuffer × Bool} (hb : Blitted fb P acc)
    (py px : Nat) : (pixel fb py px = true ∧ P py px) ↔ (pixel fb py px = true ∧ pixel acc.1 py px = false) := by
  have h := hb.1 py px
  cases hf : pixel fb py px <;> cases ha : pixel acc.1 py px <;> simp [hf, ha] at h ⊢ <;> tauto

/-- Settles O37: two toggles of the same pixels are none, and the lit pixels that the second meets are those that the first
turned on. -/
theorem blitTwiceRestores : Obligations.BlitTwiceRestores := by
  intro fb x y rows h
  have h32 := h.trans (show 15 ≤ 32 by decide)
  have hb₁ := blitted_blit fb x y rows h32
  have hb₂ := blitted_blit (blit fb x y rows).1 x y rows h32
  constructor
  · apply fb_ext
    intro py px
    rw [Bool.eq_iff_iff, hb₂.1, hb₁.1]
    tauto
  · simp only [hb₂.2, hb₁.turned_on_iff]

/-! ## DXYN -/

theorem State.bytesAtI_eq_map (s : State) (n : Nat) :
    s.bytesAtI n = (List.range n).map (fun r => s.readByte (s.i.toNat + r)) := by
  apply List.ext_getElem
  · simp [State.bytesAtI, State.readBytes_length]
  · intro j hj _
    rw [List.getElem_map, List.getElem_range]
    exact s.readBytes_getElem s.i.toNat n j hj

theorem exec_drw (x y : Reg) (n : Nibble) (s : State) :
    exec (.drw x y n) s =
      .next ((s.setFb (blit s.fb (s.reg x).toNat (s.reg y).toNat (s.bytesAtI n.toNat)).1).setFlag
        (blit s.fb (s.reg x).toNat (s.reg y).toNat (s.bytesAtI n.toNat)).2) := rfl

theorem State.reg_setFlag (s : State) (c : Bool) (r : Reg) : (s.setFlag c).reg r = if r = vf then flagByte c else s.reg r :=
  State.reg_setReg s vf r (flagByte c)

theorem State.reg_setFlag_vf (s : State) (c : Bool) : (s.setFlag c).reg vf = flagByte c := by
  rw [State.reg_setFlag, if_pos rfl]

theorem flagByte_eq_one_iff (c : Bool) : flagByte c = 1 ↔ c = true := by cases c <;> decide

/-- Settles O38: DXYN is the blit of the bytes at I, whose collisions are the lit pixels it turned off. -/
theorem drawSprite : Obligations.DrawSprite := by
  intro s x y n
  have hb := blitted_blit s.fb (s.reg x).toNat (s.reg y).toNat (s.bytesAtI n.toNat) (by
    have hn := n.isLt
    rw [State.bytesAtI, State.readBytes_length]
    omega)
  refine ⟨_, exec_drw x y n s, ?_, ?_, ?_, ?_⟩
  · rw [← State.bytesAtI_eq_map]
    exact hb.1
  · rw [State.reg_setFlag_vf, flagByte_eq_one_iff, hb.2]
    simp only [hb.turned_off_iff, State.setFlag_fb, State.setFb_fb]
  · rw [State.reg_setFlag_vf]
    exact flagByte_zero_or_one _
  · constructor <;> simp [State.reg_setFlag]
    exact fun r hr hf => absurd hf hr

end Sys2Proof.Machine
end

section
/-! The instructions on registers: skips, ALU, jump with offset, random byte, timers (42_skip.md, 44_alu.md,
45_index_jump_random.md, 47_key_skip.md, 48_timer_keywait.md). -/

namespace Sys2Proof.Machine

/-! ## Skips -/

theorem nField_ne_zero_of_and {w : Word} (h : w &&& 0x000F ≠ 0) : nField w ≠ 0x0 := by
  refine nField_ne_zero fun hn => h (BitVec.eq_of_toNat_eq ?_)
  rw [BitVec.toNat_and]
  exact (Nat.and_two_pow_sub_one_eq_mod w.toNat 4).trans hn

/-- Settles O26: the rows of major opcodes 5 and 9, and two conditional skips. -/
theorem skipOnRegisters : Obligations.SkipOnRegisters := by
  refine ⟨decodesTo_seReg, decodesTo_sneReg, fun w hm hn => ?_, fun w hm hn => ?_, fun s x y => ⟨?_, ?_⟩⟩
  · rw [decodeWord_major5 ((and_F000_eq w 0x5).1 hm), if_neg (nField_ne_zero_of_and hn)]
  · rw [decodeWord_major9 ((and_F000_eq w 0x9).1 hm), if_neg (nField_ne_zero_of_and hn)]
  · exact ⟨s.skipIf (s.reg x == s.reg y), rfl, by simp, Unchanged.skipIf s _⟩
  · exact ⟨s.skipIf (s.reg x != s.reg y), rfl, by simp, Unchanged.skipIf s _⟩

theorem State.keyOperand_val (s : State) (x : Reg) : (s.keyOperand x).val = (s.reg x).toNat % 16 :=
  BitVec.extractLsb'_toNat ..

/-- Settles O27: the key tested is `keyOperand`, the low nibble of VX by number. -/
theorem skipOnKey : Obligations.SkipOnKey := by
  intro s x k hk
  obtain rfl : s.keyOperand x = k := Fin.ext ((s.keyOperand_val x).trans hk.symm)
  refine ⟨⟨_, rfl, s.skipIf_pc _, Unchanged.skipIf s _⟩, ⟨_, rfl, (s.skipIf_pc _).trans ?_, Unchanged.skipIf s _⟩⟩
  change (if (!s.key (s.keyOperand x)) = true then s.pc + 2 else s.pc) =
    if s.key (s.keyOperand x) = true then s.pc else s.pc + 2
  cases s.key (s.keyOperand x) <;> rfl

/-! ## The ALU -/

/-- Settles O29: four rows of major opcode 8, and one write to VX each. -/
theorem assignAndLogic : Obligations.AssignAndLogic := by
  refine ⟨decodesTo_major8 (n := 0x0) (f := .ldReg) fun _ _ => rfl, decodesTo_major8 (n := 0x1) (f := .orReg) fun _ _ => rfl,
    decodesTo_major8 (n := 0x2) (f := .andReg) fun _ _ => rfl, decodesTo_major8 (n := 0x3) (f := .xorReg) fun _ _ => rfl,
    fun s x y => ⟨?_, ?_, ?_, ?_⟩⟩
  · exact ⟨_, rfl, s.reg_setReg_same x _, Unchanged.setReg s x _⟩
  · exact ⟨_, rfl, Unchanged.setReg s x _, fun k => by rw [State.reg_setReg_same, BitVec.getLsbD_or]⟩
  · exact ⟨_, rfl, Unchanged.setReg s x _, fun k => by rw [State.reg_setReg_same, BitVec.getLsbD_and]⟩
  · exact ⟨_, rfl, Unchanged.setReg s x _, fun k => by rw [State.reg_setReg_same, BitVec.getLsbD_xor]⟩

theorem State.reg_setResultAndFlag_vf (s : State) (x : Reg) (b : Byte) (c : Bool) :
    (s.setResultAndFlag x b c).reg vf = flagByte c := by
  rw [State.reg_setResultAndFlag, if_pos rfl]

theorem State.reg_setResultAndFlag_same (s : State) {x : Reg} (hx : x ≠ vf) (b : Byte) (c : Bool) :
    (s.setResultAndFlag x b c).reg x = b := by
  rw [State.reg_setResultAndFlag, if_neg hx, if_pos rfl]

theorem flagByte_decide (p : Prop) [Decidable p] : flagByte (decide p) = if p then 1 else 0 := by
  by_cases hp : p <;> simp [flagByte, hp]

/-- Subtraction modulo 256, by number. -/
theorem byte_sub_toNat (a b : Byte) : (a - b).toNat = (a.toNat + 256 - b.toNat) % 256 := by
  rw [BitVec.toNat_sub]
  omega

/-- Settles O30: the result is the sum modulo 256, the flag `carry`. -/
theorem addRegistersWithCarry : Obligations.AddRegistersWithCarry := by
  intro s x y
  refine ⟨_, rfl, fun hx => ?_, ?_, Unchanged.setResultAndFlag s x _ _⟩
  · rw [State.reg_setResultAndFlag_same s hx, BitVec.toNat_add]
  · rw [State.reg_setResultAndFlag_vf, carry, flagByte_decide]

/-- Settles O31: each result is the difference modulo 256, the flag `notBorrow` of the same operands. -/
theorem subtractBothWays : Obligations.SubtractBothWays := by
  intro s x y
  refine ⟨⟨_, rfl, fun hx => ?_, ?_, Unchanged.setResultAndFlag s x _ _⟩,
    ⟨_, rfl, fun hx => ?_, ?_, Unchanged.setResultAndFlag s x _ _⟩⟩
  · rw [State.reg_setResultAndFlag_same s hx, byte_sub_toNat]
  · rw [State.reg_setResultAndFlag_vf, notBorrow, flagByte_decide]
  · rw [State.reg_setResultAndFlag_same s hx, byte_sub_toNat]
  · rw [State.reg_setResultAndFlag_vf, notBorrow, flagByte_decide]

theorem State.shiftOperand_eq {s : State} {x y z : Reg} (hx : s.params.shiftSrc = .vx → z = x)
    (hy : s.params.shiftSrc = .vy → z = y) : s.shiftOperand x y = s.reg z := by
  unfold State.shiftOperand
  split
  · rename_i h; rw [hx h]
  · rename_i h; rw [hy h]

theorem flagByte_toNat (c : Bool) : (flagByte c).toNat = c.toNat := by cases c <;> rfl

theorem shiftedOutRight_toNat (b : Byte) : (shiftedOutRight b).toNat = b.toNat % 2 := by
  rw [shiftedOutRight, ← BitVec.testBit_toNat, Nat.toNat_testBit, pow_zero, Nat.div_one]

theorem shiftedOutLeft_toNat (b : Byte) : (shiftedOutLeft b).toNat = b.toNat / 128 := by
  rw [shiftedOutLeft, ← BitVec.testBit_toNat, Nat.toNat_testBit]
  omega

/-- Settles O32: the operand is `Vz`, the flag the bit shifted out. -/
theorem shiftsByOneBit : Obligations.ShiftsByOneBit := by
  intro s x y z hx hy
  have hz := State.shiftOperand_eq hx hy
  refine ⟨⟨_, rfl, fun hne => ?_, ?_, Unchanged.setResultAndFlag s x _ _⟩,
    ⟨_, rfl, fun hne => ?_, ?_, Unchanged.setResultAndFlag s x _ _⟩⟩
  · rw [State.reg_setResultAndFlag_same s hne, hz, BitVec.toNat_ushiftRight, Nat.shiftRight_eq_div_pow, pow_one]
  · rw [State.reg_setResultAndFlag_vf, hz, flagByte_toNat, shiftedOutRight_toNat]
  · rw [State.reg_setResultAndFlag_same s hne, hz, BitVec.toNat_shiftLeft, Nat.shiftLeft_eq, pow_one]
  · rw [State.reg_setResultAndFlag_vf, hz, flagByte_toNat, shiftedOutLeft_toNat]

/-! ## BNNN and CXNN -/

@[simp] theorem zextByte_toNat (b : Byte) : (zextByte b).toNat = b.toNat := BitVec.toNat_setWidth_of_le (by decide)

/-- Settles O34: a 12-bit and an 8-bit number add up to fewer than 65536. -/
theorem jumpWithOffsetV0 : Obligations.JumpWithOffsetV0 := by
  intro s nnn
  refine ⟨_, rfl, ?_, Unchanged.setPc s _⟩
  have hn := nnn.isLt
  have hv := (s.reg 0).isLt
  rw [State.setPc_pc, BitVec.toNat_add, zextAddr_toNat, zextByte_toNat]
  omega

/-- Settles O35: whatever the free byte is, AND with NN keeps no bit that NN lacks. -/
theorem randomByteIsMasked : Obligations.RandomByteIsMasked := by
  intro s x nn
  have hx : (((s.setReg x (s.randByte &&& nn)).nextDraw).reg x) = Config.freeByte s.draws &&& nn := s.reg_setReg_same x _
  refine ⟨_, rfl, hx, ?_, fun k hk => ?_, rfl, ?_⟩
  · rw [hx, BitVec.toNat_and]
    exact Nat.and_le_right
  · rw [hx, BitVec.getLsbD_and, hk, Bool.and_false]
  · constructor <;> simp [State.nextDraw]
    exact fun r hr h => absurd h hr

/-! ## FX07, FX15, FX18 -/

/-- Settles O39: one write each, to VX, DT or ST. -/
theorem timerReadsAndWrites : Obligations.TimerReadsAndWrites := by
  intro s x
  refine ⟨⟨_, rfl, s.reg_setReg_same x _, Unchanged.setReg s x _⟩, ⟨_, rfl, rfl, Unchanged.setDt s _⟩,
    ⟨_, rfl, rfl, ?_, Unchanged.setSt s _⟩⟩
  rw [State.soundOn, bne_iff_ne, State.setSt_st]

end Sys2Proof.Machine
end

section
/-! I and memory: addresses, the fetched word, the font, decimal digits, dumping and loading registers (20_memory.md,
49_index_memory.md). -/

namespace Sys2Proof.Machine

/-! ## Addresses and the fetch -/

theorem maskAddr_mod_4096 (a : Nat) : maskAddr (a % 4096) = maskAddr a := Nat.mod_mod a 4096

theorem maskAddr_mod_65536 (a : Nat) : maskAddr (a % 65536) = maskAddr a := Nat.mod_mod_of_dvd a (by decide)

/-- Settles O52: reads and writes see an address through `maskAddr` alone. -/
theorem addressesWrapAtTwelveBits : Obligations.AddressesWrapAtTwelveBits := by
  intro s a b
  simp only [State.readByte, State.writeByte, maskAddr_mod_4096, maskAddr_mod_65536, and_self]

theorem State.fetch_writeBytes_pc (s : State) (w : Word) : (s.writeBytes s.pc.toNat (wordBytes w)).fetch = w := by
  obtain ⟨hi, lo, hb, hw⟩ := joinBytes_wordBytes w
  have hhi := s.readByte_writeBytes_inside s.pc.toNat [hi, lo] 0 (by simp) (by simp)
  have hlo := s.readByte_writeBytes_inside s.pc.toNat [hi, lo] 1 (by simp) (by simp)
  rw [Nat.add_zero] at hhi
  rw [State.fetch, State.readWord, State.writeBytes_pc, hb, hhi, hlo]
  exact hw

/-- Settles O9: the fetch joins the two bytes just written. -/
theorem storeIsSeenByNextFetch : Obligations.StoreIsSeenByNextFetch := State.fetch_writeBytes_pc

/-! ## A placed word -/

section
variable (s : State) (w : Word)

theorem placeWord_ready : (placeWord s w).ready := ⟨rfl, rfl, rfl⟩

theorem placeWord_pc : (placeWord s w).pc = s.pc := by simp [placeWord]

theorem placeWord_readByte (a : Nat) : (placeWord s w).readByte a = (s.writeBytes s.pc.toNat (wordBytes w)).readByte a := by
  simp [placeWord]

theorem placeWord_fetch : (placeWord s w).fetch = w := by
  rw [State.fetch, State.readWord, placeWord_pc, placeWord_readByte, placeWord_readByte]
  have hw := s.fetch_writeBytes_pc w
  rwa [State.fetch, State.readWord, State.writeBytes_pc] at hw

theorem step_placeWord {i : Instr} (h : decodeWord w = .ok i) :
    step (placeWord s w) = exec i ((placeWord s w).setPc (s.pc + 2)) := by
  rw [step_of_ready (placeWord_ready s w), runInstruction_ok (by rw [placeWord_fetch, h]), State.advance, placeWord_pc]

theorem placeWord_eq : placeWord s w =
    (((s.setMem (s.writeBytes s.pc.toNat (wordBytes w)).mem).setInputs []).setRun true).setKw .idle := by
  rw [← State.writeBytes_eq_setMem, placeWord]

theorem placeWord_readByte_outside {a : Nat} (ha : maskAddr a ∉ maskedRange s.pc.toNat 2) :
    (placeWord s w).readByte a = s.readByte a := by
  rw [placeWord_readByte]
  exact (Unchanged.writeBytes s s.pc.toNat (wordBytes w)).bytes a ha

end

theorem decodeWord_of_decodeTableWord {nbits w : Nat} {i : Instr} (h : decodeTableWord nbits w = some i) :
    decodeWord (BitVec.ofNat 16 (w % 2 ^ nbits)) = .ok i := by
  have hb := decodeBytes_wordBytes (BitVec.ofNat 16 (w % 2 ^ nbits)) []
  rw [List.append_nil] at hb
  rw [decodeTableWord, hb] at h
  cases hd : decodeWord (BitVec.ofNat 16 (w % 2 ^ nbits)) with
  | ok j => rw [hd] at h; exact congrArg _ (Option.some.inj h)
  | error e => rw [hd] at h; cases h

/-- Settles O60: `withFetchWord` places the word that `decodeTableWord` decodes. -/
theorem placedWordRunsNext : Obligations.PlacedWordRunsNext := by
  intro s w i h
  have hd := decodeWord_of_decodeTableWord h
  have hfetch : (s.withFetchWord 16 w).fetch.toNat = w % 65536 := by
    rw [State.withFetchWord, placeWord_fetch, BitVec.toNat_ofNat]
    exact Nat.mod_mod w 65536
  exact ⟨step_placeWord s _ hd, placeWord_ready s _, hfetch, _, placeWord_eq s _, fun _ => placeWord_readByte_outside s _⟩

/-! ## I and the font -/

theorem State.glyphAddr_toNat (s : State) (x : Reg) :
    (s.glyphAddr x).toNat = (s.params.fontBase.toNat + 5 * ((s.reg x).toNat % 16)) % 65536 := by
  have hd : (s.reg x &&& 0x0F).toNat = (s.reg x).toNat % 16 := by
    rw [BitVec.toNat_and]
    exact Nat.and_two_pow_sub_one_eq_mod _ 4
  rw [State.glyphAddr, BitVec.toNat_add, BitVec.toNat_mul, zextByte_toNat, hd]
  exact Nat.add_mod_mod _ _ _

/-- Settles O46: both sums are 16-bit additions. -/
theorem indexArithmetic : Obligations.IndexArithmetic := by
  intro s x
  refine ⟨⟨_, rfl, ?_, Unchanged.setI s _⟩, ⟨_, rfl, s.glyphAddr_toNat x, Unchanged.setI s _⟩⟩
  rw [State.setI_i, BitVec.toNat_add, zextByte_toNat]

/-- Power-on memory: the font in its 80 bytes. -/
theorem unlisted_font (p : Params) {j : Nat} (hj : j < 80) : unlisted p (p.fontBase.toNat + j) = p.fontData[j] := by
  rw [unlisted, if_pos (Nat.le_add_right _ _), Nat.add_sub_cancel_left, List.getD_eq_getElem _ _ (by simpa using hj),
    Vector.getElem_toList]

/-- Power-on memory: 0 outside the font. -/
theorem unlisted_outside (p : Params) {a : Nat} (ha : a < p.fontBase.toNat ∨ p.fontBase.toNat + 80 ≤ a) :
    unlisted p a = 0 := by
  rw [unlisted]
  split
  · rw [List.getD_eq_default _ _ (by rw [Vector.length_toList]; omega)]
  · rfl

theorem Params.fontBase_le {p : Params} (h : p.wf = true) : p.fontBase.toNat + 80 ≤ 0x200 := of_decide_eq_true h

theorem maskAddr_of_lt {a : Nat} (h : a < 0x1000) : maskAddr a = a := Nat.mod_eq_of_lt h

/-- Settles O47: the glyph's five bytes lie in the font's 80, where nothing is listed. -/
theorem fontAddressFindsGlyph : Obligations.FontAddressFindsGlyph := by
  intro s x hp hm
  have hbase := Params.fontBase_le hp
  refine ⟨_, rfl, fun r hr => ?_⟩
  have hj : 5 * ((s.reg x).toNat % 16) + r < 80 := by omega
  have haddr : (s.glyphAddr x).toNat + r = s.params.fontBase.toNat + (5 * ((s.reg x).toNat % 16) + r) := by
    rw [State.glyphAddr_toNat, Nat.mod_eq_of_lt (by omega), Nat.add_assoc]
  have hunlisted : ∀ c ∈ s.mem, c.1 ≠ s.params.fontBase.toNat + (5 * ((s.reg x).toNat % 16) + r) := by
    intro c hc he
    have hout := hm c hc
    omega
  rw [State.setI_i, State.setI_readByte, haddr, State.readByte, maskAddr_of_lt (by omega),
    memRead_of_not_listed _ _ _ hunlisted, unlisted_font _ hj]

/-! ## FX33, FX55, FX65 -/

/-- Settles O48: three writes, each of a number below 256. -/
theorem storeDecimalDigits : Obligations.StoreDecimalDigits := by
  intro s x
  have hx := (s.reg x).isLt
  have hdigit (j : Nat) (hj : j < 3) :
      (s.writeBytes s.i.toNat (bcdDigits (s.reg x))).readByte (s.i.toNat + j) = (bcdDigits (s.reg x))[j]'hj :=
    s.readByte_writeBytes_inside s.i.toNat (bcdDigits (s.reg x)) j hj (show 3 ≤ 0x1000 by decide)
  refine ⟨_, rfl, ?_, ?_, ?_, Unchanged.writeBytes s s.i.toNat (bcdDigits (s.reg x))⟩
  · refine (congrArg BitVec.toNat (hdigit 0 (by decide))).trans ((BitVec.toNat_ofNat ..).trans ?_)
    omega
  · refine (congrArg BitVec.toNat (hdigit 1 (by decide))).trans ((BitVec.toNat_ofNat ..).trans ?_)
    omega
  · refine (congrArg BitVec.toNat (hdigit 2 (by decide))).trans ((BitVec.toNat_ofNat ..).trans ?_)
    omega

/-- Settles O49: `firstRegs` lists V0 to VX, and a block of writes puts its bytes in order. -/
theorem dumpRegisters : Obligations.DumpRegisters := by
  intro s x
  have hx := x.isLt
  have hlen := s.firstRegs_length (x.val + 1) hx
  refine ⟨_, rfl, fun r hr => ?_, ?_⟩
  · have hr' : r.val < (s.firstRegs (x.val + 1)).length := by
      have : r.val ≤ x.val := hr
      omega
    rw [State.readByte_writeBytes_inside _ _ _ r.val hr' (by omega), State.firstRegs_getElem _ _ _ _ r.isLt]
  · have hframe := Unchanged.writeBytes s s.i.toNat (s.firstRegs (x.val + 1))
    rwa [hlen] at hframe

/-- Settles O50: `bytesAtI` lists the bytes from I on, and a block of register writes puts them into V0 to VX. -/
theorem loadRegisters : Obligations.LoadRegisters := by
  intro s x
  have hx := x.isLt
  have hlen : (s.bytesAtI (x.val + 1)).length = x.val + 1 := s.readBytes_length _ _
  refine ⟨_, rfl, fun r hr => ?_, Unchanged.setRegsFrom s x _ hlen⟩
  have hr' : r.val < (s.bytesAtI (x.val + 1)).length := by
    have : r.val ≤ x.val := hr
    omega
  rw [State.reg_setRegsFrom s 0 _ r (by omega), if_pos (Nat.zero_le _), Nat.sub_zero, List.getD_eq_getElem _ _ hr']
  exact s.readBytes_getElem _ _ _ hr'

/-- A read depends on memory and the parameters alone. -/
theorem State.readByte_congr {s t : State} (hm : s.mem = t.mem) (hp : s.params = t.params) (a : Nat) :
    s.readByte a = t.readByte a := by
  rw [State.readByte, State.readByte, hm, hp]

/-- Settles O51: the load reads back the bytes that the dump wrote. -/
theorem dumpThenLoadRestores : Obligations.DumpThenLoadRestores := by
  intro s u x h
  obtain ⟨t, ht, hdump, hframe⟩ := dumpRegisters s x
  obtain ⟨hm, hp, hi⟩ := h t ht
  obtain ⟨v, hv, hload, -⟩ := loadRegisters u x
  have hti : t.i = s.i := hframe.i List.not_mem_nil
  refine ⟨v, hv, fun r hr => ?_⟩
  rw [hload r hr, State.readByte_congr hm hp, hi, hti, hdump r hr]

end Sys2Proof.Machine
end

section
/-! The timer unit, the keypad and the key wait (48_timer_keywait.md, 60_exceptions.md sections 5 and 6). -/

namespace Sys2Proof.Machine

/-- A queued event is delivered to the state without it. -/
theorem step_of_queued {s : State} {e : Event} {rest : List Event} (h : s.inputs = e :: rest) :
    step s = applyEvent e (s.setInputs rest) := by
  rw [step, deliverEvent, nextEvent, State.dropEvent_eq, h, List.tail_cons]

/-! ## Ticks -/

theorem countDown_toNat (b : Byte) : (countDown b).toNat = b.toNat - 1 := by
  unfold countDown
  split
  · subst b; rfl
  · rename_i h
    have h0 : b.toNat ≠ 0 := fun h0 => h (BitVec.eq_of_toNat_eq h0)
    have hb := b.isLt
    rw [byte_sub_toNat, show (1 : Byte).toNat = 1 from rfl]
    omega

theorem tick_of_running {s : State} (h : s.run = true) : tick s = (s.setDt (countDown s.dt)).setSt (countDown s.st) :=
  if_pos h

theorem tick_of_paused {s : State} (h : ¬ s.run = true) : tick s = s := if_neg h

theorem Unchanged.tick (s : State) : Unchanged { parts := [.dt, .st] } s (tick s) := by
  by_cases h : s.run = true
  · rw [tick_of_running h]
    constructor <;> simp
  · rw [tick_of_paused h]
    exact Unchanged.refl _ s

/-- Settles O40: Running, each timer counts down by `countDown_toNat`; Paused, the tick is the identity. -/
theorem tickCountsDown : Obligations.TickCountsDown := by
  intro s rest h
  refine ⟨_, step_of_queued h, Unchanged.tick _, ?_⟩
  by_cases hr : s.run = true
  · rw [tick_of_running (s := s.setInputs rest) hr, if_pos hr, if_pos hr]
    exact ⟨countDown_toNat _, countDown_toNat _⟩
  · rw [tick_of_paused (s := s.setInputs rest) hr, if_neg hr, if_neg hr]
    exact ⟨rfl, rfl⟩

/-- Settles O41, by induction on the number of ticks, the first one taken off. -/
theorem timersDecayToZero : Obligations.TimersDecayToZero := by
  intro s n h
  induction n generalizing s with
  | zero => exact ⟨rfl, rfl, Unchanged.refl _ s⟩
  | succ n ih =>
    obtain ⟨hdt, hst, hframe⟩ := ih (tick s) ((Unchanged.tick s).run.trans h)
    refine ⟨?_, ?_, (Unchanged.tick s).trans hframe⟩
    · rw [Function.iterate_succ_apply, hdt, tick_of_running h, State.setSt_dt, State.setDt_dt, countDown_toNat]
      omega
    · rw [Function.iterate_succ_apply, hst, tick_of_running h, State.setSt_st, countDown_toNat]
      omega

/-! ## The key wait -/

/-- Settles O42: the fetching step's advance and FX0A's going back cancel. -/
theorem keyWaitBegins : Obligations.KeyWaitBegins := by
  constructor
  · intro s x
    refine ⟨_, rfl, rfl, rfl, ?_⟩
    constructor <;> simp
  · intro s x hs hd
    refine ⟨(s.advance.setPc s.advance.insnAddr).setKw (.waiting x), ?_, rfl, ?_⟩
    · rw [step_of_ready hs, runInstruction_ok hd]
      rfl
    · rw [State.insnAddr_advance]
      constructor <;> simp [State.advance]

theorem keyByte_toNat (k : Key) : (keyByte k).toNat = k.val := by
  have hk := k.isLt
  exact (BitVec.toNat_ofNat ..).trans (Nat.mod_eq_of_lt (by omega))

section
variable (x : Reg) (k : Key) (s : State)

theorem completeKeyWait_reg : ((completeKeyWait x k s).reg x).toNat = k.val := by
  rw [← keyByte_toNat k]
  exact congrArg BitVec.toNat (s.reg_setReg_same x (keyByte k))

theorem completeKeyWait_pc : (completeKeyWait x k s).pc = s.pc + 2 := rfl

theorem Unchanged.completeKeyWait : Unchanged { regs := [x], parts := [.pc, .kw] } s (completeKeyWait x k s) := by
  constructor <;> simp [Machine.completeKeyWait, State.advance]
  exact fun r hr h => absurd h hr

end

/-- Settles O43: a waiting latch holds the step, a captured key completes it. -/
theorem keyWaitHoldsAndCompletes : Obligations.KeyWaitHoldsAndCompletes := by
  intro s x hq hr
  rw [step_of_no_input hq hr]
  exact ⟨executorStep_waiting, fun k hk => ⟨_, executorStep_captured hk, completeKeyWait_reg x k s, rfl, rfl,
    Unchanged.completeKeyWait x k s⟩⟩

/-! ## Key events -/

theorem captureKey_of_press {s : State} {x : Reg} {k : Key} (hw : s.kw = .waiting x) (hk : s.key k = false) :
    captureKey k true s = .captured x k := by
  simp [captureKey, hw, hk]

/-- No capture: a release, a key that is down already, or a latch that does not wait. -/
theorem captureKey_eq_kw {s : State} {k : Key} {pressed : Bool}
    (h : pressed = false ∨ s.key k = true ∨ ∀ x, s.kw ≠ .waiting x) : captureKey k pressed s = s.kw := by
  cases hw : s.kw with
  | idle => simp [captureKey, hw]
  | captured x k => simp [captureKey, hw]
  | waiting x =>
    obtain rfl | hk | hne := h
    · simp [captureKey, hw]
    · simp [captureKey, hw, hk]
    · exact absurd hw (hne x)

theorem Unchanged.setKey (k : Key) (pressed : Bool) (s : State) :
    Unchanged { parts := [.keys, .kw] } s (setKey k pressed s) := by
  constructor <;> simp [Machine.setKey]

/-- Settles O44: the one flag by `Vector.set`, the latch by the two lemmas on `captureKey`. -/
theorem setKeyAndCapture : Obligations.SetKeyAndCapture := by
  intro s rest k pressed h
  refine ⟨_, step_of_queued h, Unchanged.setKey k pressed _, ?_, fun j hj => ?_, fun x hp hk hw => ?_, fun hno => ?_⟩
  · exact Vector.getElem_set_self _
  · exact Vector.getElem_set_ne k.isLt j.isLt fun he => hj (Fin.ext he.symm)
  · subst hp
    exact captureKey_of_press (s := s.setInputs rest) hw hk
  · exact captureKey_eq_kw (s := s.setInputs rest) hno

/-! ## Runs of events -/

theorem runEvents_cons {e : Event} {s t : State} (h : applyEvent e s = .next t) (es : List Event) :
    runEvents (e :: es) s = runEvents es t := by
  rw [runEvents, h]

theorem runEvents_append {es : List Event} {s t : State} (h : runEvents es s = .next t) (fs : List Event) :
    runEvents (es ++ fs) s = runEvents fs t := by
  induction es generalizing s with
  | nil => cases h; rfl
  | cons e es ih =>
    rw [runEvents] at h
    split at h
    · rename_i u hu
      rw [List.cons_append, runEvents_cons hu, ih h]
    · cases h
    · cases h

/-- Once a key is captured, key events change the key flags alone. -/
theorem runEvents_setKey_of_captured {x : Reg} {k : Key} (later : List (Key × Bool)) {s : State}
    (h : s.kw = .captured x k) :
    ∃ t, runEvents (later.map (fun e => .setKey e.1 e.2)) s = .next t ∧ Unchanged { parts := [.keys] } s t := by
  induction later generalizing s with
  | nil => exact ⟨s, rfl, Unchanged.refl _ s⟩
  | cons e es ih =>
    have hkw : (setKey e.1 e.2 s).kw = s.kw := captureKey_eq_kw (.inr (.inr (by simp [h])))
    have hframe : Unchanged { parts := [.keys] } s (setKey e.1 e.2 s) := by
      rw [show setKey e.1 e.2 s = s.setKeys (s.keys.set e.1.val e.2) from congrArg (fun w => (s.setKw w).setKeys _) hkw]
      exact Unchanged.setKeys s _
    obtain ⟨t, ht, hst⟩ := ih (hkw.trans h)
    exact ⟨t, ht, hframe.trans hst⟩

/-- Settles O45: the press captures its key, later key events leave the latch alone, and the step completes the wait. -/
theorem firstPressEndsKeyWait : Obligations.FirstPressEndsKeyWait := by
  intro s x k later hw hk hr
  have hkw : (setKey k true s).kw = .captured x k := captureKey_of_press hw hk
  obtain ⟨u, hu, hframe⟩ := runEvents_setKey_of_captured later hkw
  have hukw : u.kw = .captured x k := (hframe.kw (by decide)).trans hkw
  have hrun : runEvents (.setKey k true :: later.map (fun e => .setKey e.1 e.2)) s = .next u := hu
  have hstep : applyEvent .step u = .next (completeKeyWait x k u) := by
    rw [applyEvent, if_pos (hframe.run.trans hr), executorStep_captured hukw]
  refine ⟨completeKeyWait x k u, ?_, completeKeyWait_reg x k u, ?_, rfl, ?_⟩
  · rw [runEvents_append hrun, runEvents_cons hstep, runEvents]
  · rw [completeKeyWait_pc, hframe.pc (by decide)]
    rfl
  · have hkeys : Unchanged { regs := [x], parts := [.pc, .kw, .keys] } s u :=
      ((Unchanged.setKey k true s).mono (by simp) (by simp) (by simp)).trans (hframe.mono (by simp) (by simp) (by simp))
    exact hkeys.trans ((Unchanged.completeKeyWait x k u).mono (by simp) (by simp) (by simp))

end Sys2Proof.Machine
end

section
/-! Power-on, restart, program load, snapshots, pausing, and the caller's policies (60_exceptions.md sections 1, 3 and 8,
70_reset_and_hazards.md). -/

namespace Sys2Proof.Machine

/-! ## Program load and power-on -/

theorem loadProgram_accepts {bytes : List Byte} (h : bytes.length ≤ 0xE00) (s : State) :
    loadProgram bytes s = .ok ((s.storeProgram bytes).setProgram bytes) :=
  if_pos (decide_eq_true h)

theorem loadProgram_rejects {bytes : List Byte} (h : 0xE00 < bytes.length) (s : State) :
    loadProgram bytes s = .error .programTooLarge :=
  if_neg (by simpa [programWf] using h)

/-- An accepted program lies below 4096 without wrapping. -/
theorem State.readByte_storeProgram_inside (s : State) {bytes : List Byte} (h : bytes.length ≤ 0xE00) {j : Nat}
    (hj : j < bytes.length) : (s.storeProgram bytes).readByte (0x200 + j) = bytes[j] :=
  s.readByte_writeBytes_inside 0x200 bytes j hj (h.trans (by decide))

theorem State.readByte_storeProgram_outside (s : State) {bytes : List Byte} (h : bytes.length ≤ 0xE00) {a : Nat}
    (ha : a < 4096) (hout : a < 0x200 ∨ 0x200 + bytes.length ≤ a) : (s.storeProgram bytes).readByte a = s.readByte a := by
  refine s.readByte_writeBytes_outside 0x200 bytes a fun j hj => ?_
  rw [maskAddr_of_lt ha, maskAddr_of_lt (by omega)]
  omega

/-- Before a program is loaded every address reads as R320 fills it. -/
theorem readByte_reset (p : Params) (a : Nat) : State.readByte { State.reset with params := p } a = unlisted p (maskAddr a) :=
  rfl

/-- Settles O54: the program is stored over power-on memory, and the font lies below it. -/
theorem powerOnLoadsProgram : Obligations.PowerOnLoadsProgram := by
  intro p bytes hp
  have hbase := Params.fontBase_le hp
  refine ⟨fun h => loadProgram_rejects h _, fun h => ?_⟩
  refine ⟨_, loadProgram_accepts h _, ?_, ?_, fun j hj => ?_, fun j hj => ?_, fun a ha hout hfont => ?_⟩
  · exact State.writeBytes_pc _ _ _
  · exact congrArg List.length (State.writeBytes_stack _ _ _)
  · exact State.readByte_storeProgram_inside _ h hj
  · rw [State.setProgram_readByte, State.readByte_storeProgram_outside _ h (by omega) (by omega), readByte_reset,
      maskAddr_of_lt (by omega), unlisted_font p hj]
  · rw [State.setProgram_readByte, State.readByte_storeProgram_outside _ h ha hout, readByte_reset, maskAddr_of_lt ha,
      unlisted_outside p hfont]

/-- Settles O53: the fields as `State.reset` writes them; memory lists nothing, so it is the default font at 0. -/
theorem resetValues : Obligations.ResetValues := by
  have hread (a : Nat) : State.reset.readByte a = unlisted defaultParams (a % 4096) := rfl
  have hbase : defaultParams.fontBase.toNat = 0 := rfl
  refine ⟨by decide, rfl, rfl, rfl, rfl, rfl, pixel_clearFb, by decide, rfl, rfl, by decide, fun a _ => ?_, fun a ha => ?_,
    rfl⟩
  · rw [hread, unlisted, hbase, if_pos (Nat.zero_le _), Nat.sub_zero]
    rfl
  · rw [hread, unlisted_outside _ (.inr (by rw [hbase]; omega))]

/-! ## Restart -/

theorem State.reg_clearBlock (s : State) (r : Reg) : s.clearBlock.reg r = 0 := Vector.getElem_replicate ..

theorem State.readByte_clearBlock (s : State) (a : Nat) : s.clearBlock.readByte a = s.readByte a := rfl

/-- Settles O55: the program is stored again, then the block is cleared, which leaves memory alone. -/
theorem restartReloadsAndResets : Obligations.RestartReloadsAndResets := by
  intro s rest h hp
  have hlen : s.program.length ≤ 0xE00 := of_decide_eq_true hp
  refine ⟨_, step_of_queued h, State.reg_clearBlock _, rfl, rfl, rfl, rfl, rfl, pixel_clearFb, rfl, fun j hj => ?_,
    fun a ha hout => ?_, ?_⟩
  · rw [restart, State.readByte_clearBlock]
    exact (s.setInputs rest).readByte_storeProgram_inside hlen hj
  · rw [restart, State.readByte_clearBlock]
    exact (s.setInputs rest).readByte_storeProgram_outside hlen ha hout
  · simp [restart, State.storeProgram]

/-! ## Rejected and accepted commands -/

theorem loadState_empty {s : State} {slot : Slot} (h : s.slots[slot.val] = none) : loadState slot s = .error .emptySlot := by
  rw [loadState, h]

theorem loadState_saved {s : State} {slot : Slot} {n : Snapshot} (h : s.slots[slot.val] = some n) :
    loadState slot s = .ok (s.restoreSnapshot n) := by
  rw [loadState, h]

theorem Unchanged.setProgram_both {f : Footprint} {s t : State} (h : Unchanged f s t) (p : List Byte) :
    Unchanged f (s.setProgram p) (t.setProgram p) where
  regs := h.regs
  bytes := h.bytes
  i := h.i
  pc := h.pc
  stack := h.stack
  dt := h.dt
  st := h.st
  fb := h.fb
  keys := h.keys
  kw := h.kw
  draws := h.draws
  run := h.run
  program := rfl
  slots := h.slots
  params := h.params
  inputs := h.inputs

/-- Settles O56: a command's error leaves the state without the event; an accepted program is stored and kept. -/
theorem rejectedHostCommandsChangeNothing : Obligations.RejectedHostCommandsChangeNothing := by
  intro s rest
  refine ⟨fun bytes hlen h => ⟨?_, ?_⟩, fun slot hslot h => ⟨?_, ?_⟩, fun bytes hlen h => ⟨?_, ?_⟩⟩
  · rw [step_of_queued h, applyEvent, loadProgram_rejects hlen, State.orUnchanged]
  · rw [hostError, loadProgram_rejects hlen]
  · rw [step_of_queued h, applyEvent, loadState_empty (s := s.setInputs rest) hslot, State.orUnchanged]
  · rw [hostError, loadState_empty hslot]
  · rw [hostError, loadProgram_accepts hlen]
  · refine ⟨((s.setInputs rest).storeProgram bytes).setProgram bytes, ?_, rfl,
      fun j hj => State.readByte_storeProgram_inside _ hlen hj,
      (Unchanged.writeBytes (s.setInputs rest) 0x200 bytes).setProgram_both bytes⟩
    rw [step_of_queued h, applyEvent, loadProgram_accepts hlen, State.orUnchanged]

/-! ## Saving and loading -/

theorem executorStep_slots {s t : State} (h : executorStep s = .next t) : t.slots = s.slots := by
  obtain ⟨x, -, rfl⟩ | ⟨x, k, -, rfl⟩ | ⟨-, i, -, hi⟩ := executorStep_next h
  · rfl
  · rfl
  · exact (exec_writesListed hi).slots

theorem orUnchanged_loadProgram_slots (s : State) (bytes : List Byte) :
    (s.orUnchanged (loadProgram bytes s)).slots = s.slots := by
  rcases le_or_gt bytes.length 0xE00 with h | h
  · rw [loadProgram_accepts h]
    exact s.writeBytes_slots _ _
  · rw [loadProgram_rejects h]
    rfl

theorem orUnchanged_loadState_slots (s : State) (slot : Slot) : (s.orUnchanged (loadState slot s)).slots = s.slots := by
  cases h : s.slots[slot.val] with
  | none => rw [loadState_empty h]; rfl
  | some n => rw [loadState_saved h]; rfl

/-- Only a save to a slot changes it (R295). -/
theorem applyEvent_slot {e : Event} {slot : Slot} (he : Event.saveState slot ≠ e) {s t : State}
    (h : applyEvent e s = .next t) : t.slots[slot.val] = s.slots[slot.val] := by
  cases e with
  | saveState slot' =>
    cases Host.Outcome.next.inj h
    exact Vector.getElem_set_ne slot'.isLt slot.isLt fun hv => he (congrArg _ (Fin.ext hv.symm))
  | step =>
    rw [applyEvent] at h
    split at h
    · simp only [executorStep_slots h]
    · cases h; rfl
  | singleStep =>
    rw [applyEvent] at h
    split at h
    · cases h; rfl
    · simp only [executorStep_slots h]
  | tick => cases Host.Outcome.next.inj h; simp only [(Unchanged.tick s).slots]
  | setKey _ _ | pause | resume => cases Host.Outcome.next.inj h; rfl
  | restart => cases Host.Outcome.next.inj h; simp [restart, State.storeProgram]
  | loadProgram bytes => cases Host.Outcome.next.inj h; simp only [orUnchanged_loadProgram_slots]
  | loadState slot' => cases Host.Outcome.next.inj h; simp only [orUnchanged_loadState_slots]

theorem runEvents_slot {es : List Event} {slot : Slot} (hes : Event.saveState slot ∉ es) {s t : State}
    (h : runEvents es s = .next t) : t.slots[slot.val] = s.slots[slot.val] := by
  induction es generalizing s with
  | nil => cases h; rfl
  | cons e es ih =>
    rw [List.mem_cons, not_or] at hes
    obtain ⟨he, hes⟩ := hes
    rw [runEvents] at h
    split at h
    · rename_i u hu
      rw [ih hes h, applyEvent_slot he hu]
    · cases h
    · cases h

/-- Settles O57: the slot still holds the snapshot, and a load restores exactly that. -/
theorem saveThenLoadReproduces : Obligations.SaveThenLoadReproduces := by
  intro s slot es t hes h
  rw [runEvents_cons (t := saveState slot s) rfl] at h
  have hslot : t.slots[slot.val] = some s.snapshot := (runEvents_slot hes h).trans (Vector.getElem_set_self _)
  refine ⟨t.restoreSnapshot s.snapshot, ?_, rfl, rfl⟩
  rw [applyEvent, loadState_saved hslot, State.orUnchanged]

/-! ## Pausing -/

theorem executorStep_run {s t : State} (h : executorStep s = .next t) : t.run = s.run := by
  obtain ⟨x, -, rfl⟩ | ⟨x, k, -, rfl⟩ | ⟨-, i, -, hi⟩ := executorStep_next h
  · rfl
  · rfl
  · exact (exec_writesListed hi).run

/-- Settles O58: the two guards of `applyEvent`, and no step changes the pause state. -/
theorem pauseGatesSteps : Obligations.PauseGatesSteps := by
  intro s
  refine ⟨fun hr => ⟨?_, ?_, fun t ht => (executorStep_run ht).trans hr⟩, fun hr => ⟨if_pos hr, if_pos hr⟩,
    ⟨_, rfl, rfl, rfl⟩, ⟨_, rfl, rfl, rfl⟩⟩
  · rw [applyEvent, if_neg (by simp [hr])]
  · rw [applyEvent, if_neg (by simp [hr])]

/-! ## The caller's policies -/

theorem drive_of_fault {s : State} {f : Fault} (h : step s = .fault f) : drive s = afterFault f := by
  rw [drive, show deliverEvent s = .fault f from h]

/-- Either stack fault is raised in the advanced state, and the caller goes on from there. -/
theorem drive_of_stack_fault {s : State} (hs : s.ready)
    (h : (∃ nnn, decodeWord s.fetch = .ok (.call nnn)) ∧ s.sp = 16 ∨ decodeWord s.fetch = .ok .ret ∧ s.sp = 0) :
    drive s = some (if s.params.autoPauseOnFault then pause s.advance else s.advance) := by
  obtain ⟨⟨nnn, hd⟩, hsp⟩ | ⟨hd, hsp⟩ := h
  · have hfault := exec_call_of_full (s := s.advance) hsp.ge nnn
    rw [drive_of_fault ((step_of_ready hs).trans ((runInstruction_ok hd).trans hfault))]
    rfl
  · have hempty : s.advance.stack = [] := List.length_eq_zero_iff.1 hsp
    rw [drive_of_fault ((step_of_ready hs).trans ((runInstruction_ok hd).trans (exec_ret_of_empty hempty)))]
    rfl

/-- Settles O59: the fault's state is `s.advance`; the parameter chooses what the caller does with it. -/
theorem invalidOpcodePolicies : Obligations.InvalidOpcodePolicies := by
  intro s hs
  refine ⟨fun e he => ?_, fun h => ?_⟩
  · have hdrive := drive_of_fault (stepFaultsOnIllegalWord s e hs he)
    constructor <;> intro hp <;> rw [hdrive, afterFault, State.setPc_params, hp]
  · have hdrive := drive_of_stack_fault hs h
    constructor <;> intro hp <;> rw [hdrive, hp] <;> rfl

end Sys2Proof.Machine
end
